-- ==== Sys2Proof/Word.lean ====
section
/-! DEFINITION. The word types: a byte, the register words, and the Nat-valued reading of byte strings in the two
byte orders of R4. -/

namespace Sys2Proof

/-- One byte of a frame or of memory. -/
abbrev Byte := BitVec 8
/-- A 32-bit word: a 32-bit register, or a binary32 value as its bits. -/
abbrev W32 := BitVec 32
/-- A 64-bit word: a control-space register as the model keeps it. -/
abbrev W64 := BitVec 64
/-- A module number (R28). -/
abbrev ModNum := BitVec 12

end Sys2Proof
end

