-- ==== Sys2Proof/Syntax.lean ====
section
/-! DEFINITION. The commands (Instr), one constructor for each row of the table of commands, and the data their operands
and the state share: requesters, Rigging packets, messages, job operations, dispatches. -/

namespace Sys2Proof

/-- Who makes a control-space or memory access: Table 1.19's requesters. -/
inductive Src where
  | mgmt
  | pcie
  | rigging (module : ModNum)
  | bowsprit
  | strand (die : Fin 4)
  deriving DecidableEq, Repr

namespace Machine

/-- A Rigging packet (Table 12.4) without its link check. -/
structure Pkt where
  opcode : Nat
  /-- ACQ [0], REL [1], SERVING [2], POISON [7:4] -/
  flags : Nat := 0
  length : Nat := 0
  source : ModNum := 0
  srcDie : Nat := 0
  dst : ModNum := 0
  address : W64 := 0
  txn : Nat := 0
  aux : Nat := 0
  e2e : Nat := 0
  linkSeq : Nat := 0
  vc : Nat := 0
  payload : List Byte := []
  deriving DecidableEq, Repr

/-- The frame a message came in, as the answer needs it (R104). -/
structure Carriage where
  /-- frame bytes before message byte 0 -/
  head : List Byte := []
  /-- the 32-byte Halyard header -/
  hdr : List Byte := []
  /-- 0 EtherType, 4 IPv4, 6 IPv6 -/
  ip : Nat := 0
  tagged : Bool := false
  prio : Nat := 0
  deriving DecidableEq, Repr

/-- A CONTROL waiting for verification (R129) or in execution. -/
structure CtlMsg where
  key : Nat
  id : Nat
  port : Nat
  car : Carriage
  msg : List Byte
  isEcho : Bool
  deriving DecidableEq, Repr

/-- A job operation on its way to the dispatcher (R363): OP of Table 4.10, its operands, and who waits for the answer:
a CONTROL, or the bank of a requester (0 management core, 1 PCI Express, 2 the Rigging). -/
structure JobOp where
  op : Nat
  operands : List Byte
  bodyLen : Nat := 0
  ctl : Option CtlMsg := none
  bank : Nat := 0
  deriving DecidableEq, Repr

/-- One mailbox (Table 13.14). -/
structure Mailbox where
  /-- 0 EMPTY, 1 NOT_READY, 2 READY -/
  state : Nat := 0
  repeat_ : Bool := false
  tag : Nat := 0
  outcome : Nat := 0
  cause : Nat := 0
  empty : Bool := false
  cycles : Nat := 0
  bucket : Nat := 0
  invocations : Nat := 0
  replays : Nat := 0
  steps : Nat := 0
  deriving DecidableEq, Repr

/-- Where a TRAIN dispatch stands in R373. -/
inductive TrainPhase where
  /-- running the shards of a run -/
  | shards
  /-- waiting for RUN_ARRIVALS, or for STATE to show the run -/
  | runWait
  /-- running the commit variant -/
  | commit
  /-- waiting for COMMIT_ARRIVALS, or for OPENED -/
  | commitWait
  deriving DecidableEq, Repr

/-- A dispatch being processed (R372, R373). -/
structure Dispatch where
  plan : Nat
  image : List Byte
  test : Bool := false
  train : Bool := false
  lead : Bool := false
  mailbox : Nat := 0
  tag : Nat := 0
  dims : List Nat := []
  shardFirst : Nat := 0
  shardCount : Nat := 0
  steps : Nat := 0
  modules : Nat := 0
  stepAddr : Nat := 0
  args : List Nat := []
  /-- shard and chunk of the invocation to come, counted from 0 -/
  shard : Nat := 0
  chunk : Nat := 0
  running : Bool := false
  cycles : Nat := 0
  bucket : Nat := 0
  invocations : Nat := 0
  /-- runs counted from 1, accepted steps, replays, runs of the current step -/
  run : Nat := 1
  accepted : Nat := 0
  replays : Nat := 0
  rerun : Nat := 0
  phase : TrainPhase := .shards
  verdict : Nat := 0
  deriving DecidableEq, Repr

/-- What a module's state record carries (R390): MIRROR_RANGE, PLAN_INFO, the QNT sequence registers and LOG_STATE as
registers (control-space offset, value); the plan slots; the job queue; the dispatch not yet ended; the mailboxes that
are not EMPTY; and r_c of the reduction groups, keyed by die * 256 + GROUP. Assumption log 113 (DESIGN CHOICE). -/
structure StateRecord where
  regs : List (Nat × W64) := []
  plans : List (Nat × List Byte) := []
  queue : List JobOp := []
  cur : Option Dispatch := none
  mail : List (Nat × Mailbox) := []
  rounds : List (Nat × Nat) := []
  deriving DecidableEq, Repr

end Machine

/-- The commands of the block: one constructor for each row of the table of commands, in its order. Operands that
recur: `p`, `n`, `port` a port or ring; `die row col strand` a strand of a tile; `id` a REQUEST_ID; `ext` and `exts` what
host memory or another module returned to a read (none: an error completion or poisoned data); `err`, `errs`, `bad`,
`fixed` what the error codes met; `ago` CK_NET cycles since the first byte crossed; `pre` a preemptable frame; `rx` the
frame being received. The meanings in Machine/ say the rest. -/
inductive Instr where
  /-- REGISTER_WRITE (R7). -/
  | registerWrite (src : Src) (off : BitVec 28) (data : List Byte)
  /-- FRAME_RECEIVED (R49). -/
  | frameReceived (p : Fin 16) (bytes : List Byte) (phyErr reasmErr : Bool) (frags : Nat) (pre : Bool) (ago : Nat)
      (path : List (BitVec 16 × Fin 3))
  /-- PAUSE_EXPIRED (R62). -/
  | pauseExpired (p : Fin 16)
  /-- FEC_CODEWORD_DECODED (R45). -/
  | fecCodewordDecoded (p : Fin 48) (symbols : Byte) (uncorrectable : Bool)
  /-- ETH_LINK_UP (R43). -/
  | ethLinkUp (p : Fin 16)
  /-- ETH_LINK_DOWN (R46). -/
  | ethLinkDown (p : Fin 16) (rx : Option (List Byte × Bool × Nat)) (align localF remoteF : Bool)
  /-- PAUSE_RESEND (R65). -/
  | pauseResend (p : Fin 16)
  /-- TX_FRAME_START (R93). -/
  | txFrameStart (p : Fin 16) (pathFail : Bool)
  /-- TX_FRAME_END (R94). -/
  | txFrameEnd (p : Fin 16) (pathFail : Bool)
  /-- PREEMPT_VERIFY (R57). -/
  | preemptVerify (p : Fin 16) (ok : Bool)
  /-- PREEMPT_CTRL_WRITE (R75). -/
  | preemptCtrlWrite (p : Fin 16) (v : W32)
  /-- PORT_ENABLE (R46). -/
  | portEnable (p : Fin 16)
  /-- PORT_DISABLE (R46). -/
  | portDisable (p : Fin 16) (rx : Option (List Byte × Bool × Nat))
  /-- NATIVE_CLEAR (R72). -/
  | nativeClear (p : Fin 16) (incs : List (Fin 52 × Nat))
  /-- COMPAT_COUNTER_READ (R73). -/
  | compatCounterRead (src : Src) (p : Fin 16) (i : Fin 24) (inc : W32)
  /-- PTP_NS_READ (R76). -/
  | ptpNsRead (src : Src)
  /-- PTP_SEC_WRITE (R76). -/
  | ptpSecWrite (v : W64)
  /-- PTP_NS_WRITE (R76). -/
  | ptpNsWrite (v : W32)
  /-- PTP_STEP_WRITE (R76). -/
  | ptpStepWrite (v : W32)
  /-- PTP_RATE_WRITE (R66). -/
  | ptpRateWrite (v : W32)
  /-- SW_IDX_WRITE (R82). -/
  | swIdxWrite (n : BitVec 16) (v : W32)
  /-- DESCRIPTOR_FETCHED (R497). -/
  | descriptorFetched (n : BitVec 16) (ext : Option (List Byte))
  /-- RING_ENABLE (R100). -/
  | ringEnable (n : BitVec 16)
  /-- RING_DISABLE (R90). -/
  | ringDisable (n : BitVec 16)
  /-- TX_STAGE (R91). -/
  | txStage (n : BitVec 16)
  /-- TX_FRAME_STAGED (R91). -/
  | txFrameStaged (n : BitVec 16) (exts : List (Option (List Byte)))
  /-- COMPLETION_TIMER (R101). -/
  | completionTimer (n : BitVec 16)
  /-- LEDGER_CHECK (R119). -/
  | ledgerCheck (p : Fin 16) (bytes : List Byte) (ago : Nat) (pre memErr : Bool)
  /-- ECHO_WINDOW_EXPIRED (R123). -/
  | echoWindowExpired (id : W64)
  /-- UPD_TIMEOUT (R123). -/
  | updTimeout (id : W64)
  /-- UPDATE_COMMIT (R170). -/
  | updateCommit (id : W64)
  /-- CONTROL_VERIFY (R130). -/
  | controlVerify
  /-- MODEL_LOAD (R156). -/
  | modelLoad (ext : Option (List Byte))
  /-- MODEL_SWITCH (R157). -/
  | modelSwitch
  /-- BUFFER_FREED (R157). -/
  | bufferFreed (m : Fin 16) (b : Fin 2)
  /-- PLAN_LOAD (R370). -/
  | planLoad (ext : Option (List Byte))
  /-- JOB_DISPATCH (R371). -/
  | jobDispatch
  /-- MAILBOX_READ (R378). -/
  | mailboxRead (src : Option Src) (m : BitVec 12)
  /-- MAILBOX_RELEASE (R379). -/
  | mailboxRelease (src : Option Src) (m : BitVec 12)
  /-- CACHE_LOOKUP (R166). -/
  | cacheLookup (id : W64) (msg : List Byte) (ago : Nat) (bad : List (Byte × Fin 4))
  /-- MISS_FETCH_COMPLETE (R168). -/
  | missFetchComplete (slot : BitVec 12) (ext : Option (List Byte))
  /-- MISS_TIMEOUT (R168). -/
  | missTimeout (slot : BitVec 12)
  /-- TABLE_INVALIDATE (R169). -/
  | tableInvalidate (mask : BitVec 16)
  /-- INVALIDATION_WALK_DONE (R169). -/
  | invalidationWalkDone
  /-- WRITEBACK_ACK (R170). -/
  | writebackAck (table : Fin 16) (entity : W32) (ok : Bool)
  /-- WRITEBACK_RETRY (R170). -/
  | writebackRetry (table : Fin 16) (entity : W32)
  /-- SAMPLE_START (R145). -/
  | sampleStart
  /-- SAMPLE_COMPLETE (R147). -/
  | sampleComplete (id : W64) (bad : List (BitVec 20)) (fixed : Nat)
  /-- NODE_SCRUB (R160). -/
  | nodeScrub (err : Fin 3)
  /-- REPLY_LAUNCH (R176). -/
  | replyLaunch (id : W64)
  /-- REPLY_CLOSE (R178). -/
  | replyClose (id : W64)
  /-- OFFLOAD_INPUT_SLOT (R186). -/
  | offloadInputSlot (die : Fin 4) (late : Bool)
  /-- OFFLOAD_OUTPUT (R186). -/
  | offloadOutput (id : W64) (outs : List W32) (poison : Bool) (becalms : Nat)
  /-- SAMPLER_ARM (R190). -/
  | samplerArm (p : Fin 16)
  /-- NOP (R368). -/
  | nop (die : Fin 4) (row : Fin 32) (col : Fin 48) (strand : Byte)
  /-- END (R368). -/
  | endStrand (die : Fin 4) (row : Fin 32) (col : Fin 48) (strand : Byte)
  /-- LOOP (R368). -/
  | loop (die : Fin 4) (row : Fin 32) (col : Fin 48) (strand : Byte)
  /-- SEND (R200). -/
  | send (die : Fin 4) (row : Fin 32) (col : Fin 48) (strand : Byte) (err : Fin 4) (path : List (Byte × Bool))
  /-- AWAIT (R207). -/
  | await (die : Fin 4) (row : Fin 32) (col : Fin 48) (strand : Byte)
  /-- HOLD_RELEASE (R207). -/
  | holdRelease
  /-- AWAIT_TIMEOUT (R208). -/
  | awaitTimeout
  /-- SETAC (R205). -/
  | setac (die : Fin 4) (row : Fin 32) (col : Fin 48) (strand : Byte)
  /-- FURL (R234). -/
  | furl (die : Fin 4) (row : Fin 32) (col : Fin 48) (strand : Byte)
  /-- FURL_COMPLETE (R235). -/
  | furlComplete (die : Fin 4) (row : Fin 32) (col : Fin 48)
  /-- UNFURL (R237). -/
  | unfurl (die : Fin 4) (row : Fin 32) (col : Fin 48) (strand : Byte)
  /-- UNFURL_ERASE (R237). -/
  | unfurlErase (die : Fin 4) (row : Fin 32) (col : Fin 48) (bank : Fin 16)
  /-- CSET (R302). -/
  | cset (die : Fin 4) (row : Fin 32) (col : Fin 48) (strand : Byte)
  /-- CENSUS_FLUSH_DONE (R304). -/
  | censusFlushDone (flush : Nat)
  /-- VEC (R368). -/
  | vec (die : Fin 4) (row : Fin 32) (col : Fin 48) (strand : Byte) (err : Fin 4)
  /-- MATMUL (R251). -/
  | matmul (die : Fin 4) (row : Fin 32) (col : Fin 48) (strand : Byte)
  /-- MATMUL_START (R252). -/
  | matmulStart (die : Fin 4) (row : Fin 32) (col : Fin 48) (q : Fin 4) (errs : List (Bool × BitVec 13 × Fin 4))
  /-- RESCALE (R297). -/
  | rescale (die : Fin 4) (row : Fin 32) (col : Fin 48) (strand : Byte)
  /-- RESCALE_START (R298). -/
  | rescaleStart (die : Fin 4) (row : Fin 32) (col : Fin 48) (errs : List (Bool × BitVec 13 × Fin 4))
  /-- DMA_COPY (R202). -/
  | dmaCopy (die : Fin 4) (row : Fin 32) (col : Fin 48) (strand : Byte) (err : Fin 5) (path : List (BitVec 18 × Bool))
  /-- DMA_REFORMAT (R312). -/
  | dmaReformat (die : Fin 4) (row : Fin 32) (col : Fin 48) (strand : Byte)
  /-- DMA_FENCE (R342). -/
  | dmaFence (die : Fin 4) (row : Fin 32) (col : Fin 48) (strand : Byte)
  /-- DMA_REDUCE (R349). -/
  | dmaReduce (die : Fin 4) (row : Fin 32) (col : Fin 48) (strand : Byte)
  /-- DMA_POLL (R337). -/
  | dmaPoll (die : Fin 4) (row : Fin 32) (col : Fin 48) (strand : Byte)
  /-- DMA_ATOMIC_ADD (R343). -/
  | dmaAtomicAdd (die : Fin 4) (row : Fin 32) (col : Fin 48) (strand : Byte)
  /-- DMA_ATOMIC_UMAX (R343). -/
  | dmaAtomicUmax (die : Fin 4) (row : Fin 32) (col : Fin 48) (strand : Byte)
  /-- DMA_ATOMIC_SMAX (R343). -/
  | dmaAtomicSmax (die : Fin 4) (row : Fin 32) (col : Fin 48) (strand : Byte)
  /-- DMA_ATOMIC_CAS (R343). -/
  | dmaAtomicCas (die : Fin 4) (row : Fin 32) (col : Fin 48) (strand : Byte)
  /-- DMA_DOORBELL (R346). -/
  | dmaDoorbell (die : Fin 4) (row : Fin 32) (col : Fin 48) (strand : Byte)
  /-- DMA_TRANSFER_END (R204). -/
  | dmaTransferEnd (cmd : Nat)
  /-- SIDE_PORT_ACCESS (R194). -/
  | sidePortAccess (die : Fin 4) (row : Fin 32) (col : Fin 48) (phase : Fin 3) (r : BitVec 13) (err : Fin 4)
  /-- BECALM_END (R210). -/
  | becalmEnd
  /-- INVOCATION_DISPATCH (R272). -/
  | invocationDispatch
  /-- INVOCATION_END (R231). -/
  | invocationEnd
  /-- ZEROING_DONE (R231). -/
  | zeroingDone
  /-- RES_RELEASE (R232). -/
  | resRelease (owner : W32)
  /-- TILE_SCRUB (R238). -/
  | tileScrub (die : Fin 4) (row : Fin 32) (col : Fin 48) (err : Fin 4)
  /-- HBM_PATROL (R246). -/
  | hbmPatrol (stack : Fin 8) (errs : Vector (Fin 3) 4) (ondie : Byte)
  /-- SEQ_OPEN (R309). -/
  | seqOpen (q : Fin 8) (ext : List (Nat × List Byte))
  /-- SEQ_CLOSE (R308). -/
  | seqClose (q : Fin 8) (ext : List (Nat × List Byte))
  /-- SEQ_ENABLE (R301). -/
  | seqEnable (q : Fin 8)
  /-- SEQ_DISABLE (R301). -/
  | seqDisable (q : Fin 8)
  /-- RUN_BARRIER (R373). -/
  | runBarrier (arrivals : Option W64) (ext : List (Nat × List Byte))
  /-- COMMIT_BARRIER (R373). -/
  | commitBarrier (arrivals : Option W64) (ext : List (Nat × List Byte))
  /-- STEP_STATE_SEEN (R373). -/
  | stepStateSeen (state : Option W64)
  /-- RIG_PORT_TRAINED (R321). -/
  | rigPortTrained (n : Fin 32)
  /-- HELLO (R427). -/
  | hello (n : Fin 32) (frame : List Byte)
  /-- PROVE (R428). -/
  | prove (n : Fin 32) (frame : List Byte)
  /-- ATTEST_TIMEOUT (R428). -/
  | attestTimeout (n : Fin 32)
  /-- RIG_PORT_RETRY (R321). -/
  | rigPortRetry (n : Fin 32)
  /-- RIG_PORT_DOWN (R324). -/
  | rigPortDown (n : Fin 32)
  /-- READ (R335). -/
  | read (port : Fin 32) (p : Machine.Pkt) (err : Fin 5)
  /-- WRITE (R335). -/
  | write (port : Fin 32) (p : Machine.Pkt)
  /-- ATOMIC_ADD (R343). -/
  | atomicAdd (port : Fin 32) (p : Machine.Pkt)
  /-- ATOMIC_UMAX (R343). -/
  | atomicUmax (port : Fin 32) (p : Machine.Pkt)
  /-- ATOMIC_SMAX (R343). -/
  | atomicSmax (port : Fin 32) (p : Machine.Pkt)
  /-- ATOMIC_CAS (R343). -/
  | atomicCas (port : Fin 32) (p : Machine.Pkt)
  /-- REDUCE (R349). -/
  | reduce (port : Fin 32) (p : Machine.Pkt)
  /-- DOORBELL (R346). -/
  | doorbell (port : Fin 32) (p : Machine.Pkt)
  /-- RESPONSE (R328). -/
  | response (port : Fin 32) (p : Machine.Pkt)
  /-- LINK_ACK (R323). -/
  | linkAck (n : Fin 32) (seq : BitVec 12)
  /-- LINK_NAK (R323). -/
  | linkNak (n : Fin 32) (seq : BitVec 12)
  /-- LINK_CREDIT (R325). -/
  | linkCredit (n : Fin 32) (aux : W32)
  /-- ACK_TIMER (R323). -/
  | ackTimer (n : Fin 32)
  /-- REPLAY_TIMEOUT (R323). -/
  | replayTimeout (n : Fin 32)
  /-- REKEY (R430). -/
  | rekey (n : Fin 32) (isTx : Bool)
  /-- OPERATION_TIMEOUT (R336). -/
  | operationTimeout (txn : W32)
  /-- POLL_READ (R337). -/
  | pollRead (cmd : Nat)
  /-- REDUCE_ROUND_TIMEOUT (R352). -/
  | reduceRoundTimeout (die : Fin 4) (group : Byte)
  /-- RED_RETRY (R351). -/
  | redRetry (cmd : Nat)
  /-- SUBMIT_GO (R364). -/
  | submitGo (src : Src)
  /-- CLAIM_EXPIRED (R365). -/
  | claimExpired
  /-- HEARTBEAT (R386). -/
  | heartbeat
  /-- HEARTBEAT_CHECK (R386). -/
  | heartbeatCheck (words : List (ModNum × W64)) (declared : List ModNum)
  /-- FENCE_WRITE (R387). -/
  | fenceWrite (w : Fin 64) (v : W64)
  /-- EPOCH_OPEN (R391). -/
  | epochOpen
  /-- CHECKPOINT_POINT (R391). -/
  | checkpointPoint (standby : Option ModNum)
  /-- CHECKPOINT_DONE (R391). -/
  | checkpointDone
  /-- EPOCH_COMMIT (R393). -/
  | epochCommit (epoch : W64) (admission : Option Bool)
  /-- EPOCH_ABANDONED (R393). -/
  | epochAbandoned
  /-- SERVE_EPOCH_ADVANCE (R407). -/
  | serveEpochAdvance
  /-- LOG_RECORD_STORED (R394). -/
  | logRecordStored (id : W64)
  /-- LOG_WRITE_RETRY (R394). -/
  | logWriteRetry (id : W64)
  /-- REMAP (R402). -/
  | remap (failed : ModNum) (standby : Option ModNum) (buddy ward : ModNum) (owners : List W32) (tables : BitVec 16)
      (writers members : List ModNum) (routes : List (ModNum × W64)) (logFrom : Option W32)
      (record : Machine.StateRecord) (rows : List (Nat × List Byte))
  /-- TABLE_HOLD (R404). -/
  | tableHold
  /-- LEASE_RENEW (R399). -/
  | leaseRenew (result : Fin 3)
  /-- LEASE_CHECK (R399). -/
  | leaseCheck (word : W64) (appointed : Bool)
  /-- NEST_LOST (R400). -/
  | nestLost
  /-- TAKE (R400). -/
  | take
  /-- LEAVE (R409). -/
  | leave
  /-- MODE_WRITE (R411). -/
  | modeWrite (v : BitVec 2)
  /-- SVN_ADVANCE (R424). -/
  | svnAdvance (v : W32)
  /-- RNG_HEALTH_FAIL (R431). -/
  | rngHealthFail
  /-- PCIE_TLP_RECEIVED (R418). -/
  | pcieTlpReceived (kind : Fin 3) (ecrcBad ep : Bool) (off : BitVec 28) (be : List Bool) (data : List Byte)
  /-- POWER_ON (R471). -/
  | powerOn
  /-- RESET_PIN (R437). -/
  | resetPin
  /-- HOST_RESET (R438). -/
  | hostReset
  /-- PERST (R478). -/
  | perst (low : Bool)
  /-- RESTART (R437). -/
  | restart
  /-- WDT_KICK (R440). -/
  | wdtKick (v : W32)
  /-- WATCHDOG_EXPIRED (R440). -/
  | watchdogExpired
  /-- REGULATORS_GOOD (R474). -/
  | regulatorsGood
  /-- REGULATOR_START_FAIL (R474). -/
  | regulatorStartFail
  /-- ROOT_PLL_LOCK (R436). -/
  | rootPllLock
  /-- ROM_BOOT (R435). -/
  | romBoot
  /-- IMAGE_COPY_TRIED (R443). -/
  | imageCopyTried (headerA headerB : List Byte) (image : Option (List Byte))
  /-- START_PLANNER (R464). -/
  | startPlanner (samples : List (List (Vector Byte 6)))
  /-- SELFTEST (R451). -/
  | selftest (rows : List (W32 × List Byte)) (faulted : List W32)
  /-- HBM_TRAINING (R452). -/
  | hbmTraining (ok : BitVec 8)
  /-- READY (R453). -/
  | ready (inUse first : Bool)
  /-- LINK_WAIT_EXPIRED (R453). -/
  | linkWaitExpired
  /-- PLANNER_PERIOD (R458). -/
  | plannerPeriod
  /-- REEF_GLIDE (R460). -/
  | reefGlide
  /-- GLIDE_DONE (R460). -/
  | glideDone
  /-- POWER_LOOP (R465). -/
  | powerLoop (watts : BitVec 16) (reg : Byte)
  /-- CURRENT_LIMIT (R465). -/
  | currentLimit (iin : BitVec 16)
  /-- THERMAL_TRIP (R467). -/
  | thermalTrip
  /-- INPUT_REMOVED (R471). -/
  | inputRemoved
  /-- OVERVOLTAGE (R471). -/
  | overvoltage
  /-- OVERCURRENT (R471). -/
  | overcurrent
  /-- SYS_REFCLK_LOST (R476). -/
  | sysRefclkLost
  /-- SERDES_REFCLK_LOST (R476). -/
  | serdesRefclkLost
  /-- PCIE_REFCLK_LOST (R476). -/
  | pcieRefclkLost
  /-- SMB_SET_OFFSET (R479). -/
  | smbSetOffset (off : W32)
  /-- SMB_READ32 (R479). -/
  | smbRead32
  /-- SMB_READ64 (R479). -/
  | smbRead64
  /-- BYPASS (R480). -/
  | bypass
  /-- SAMPLE_PRELOAD (R480). -/
  | samplePreload (sampled preload : List Bool)
  /-- EXTEST (R480). -/
  | extest
  /-- EVENTS_CLEAR (R485). -/
  | eventsClear (off : BitVec 28) (v hw : W64)
  /-- MSIX_UNMASK (R492). -/
  | msixUnmask (vector : Option (Fin 64))
  /-- MONITOR_SAMPLE (R456). -/
  | monitorSample (slackL slackS temp : Byte) (ro : BitVec 20) (vin iin : BitVec 16)
  /-- HBM_TEMPERATURE_REPORT (R245). -/
  | hbmTemperatureReport (stack : Fin 8) (temp : Byte)
  /-- HBM_STACK_FAILED (R385). -/
  | hbmStackFailed (stack : Fin 8) (lost : Bool)
  /-- LEASE_LAPSED (R399). -/
  | leaseLapsed
  /-- SUBMIT_STATUS_READ (R365). -/
  | submitStatusRead (src : Src)
  /-- RESET_N_RELEASED (R437). -/
  | resetNReleased
  /-- SERDES_REFCLK_RETURNED (R476). -/
  | serdesRefclkReturned
  /-- MGMT_CORE_MEMORY_ERROR (R419). -/
  | mgmtCoreMemoryError
  /-- BAD_OPCODE (R327). -/
  | badOpcode (port : Fin 32) (p : Machine.Pkt)
  /-- LINK_CHECK_FAIL (R323). -/
  | linkCheckFail (n : Fin 32) (why : Fin 3)
  deriving DecidableEq, Repr

end Sys2Proof
end

