-- ==== Sys2Proof/Decode.lean ====
section
/-! DEFINITION. The commands that a word spells by the table's bits. The table gives no row bits: the commands of this
block come from outside as operations, frames, packets and pin events, not as words. -/

namespace Sys2Proof

/-- The command that a word of the table spells: none, for no row has bits. -/
def decodeTableWord (_nbits _w : Nat) : Option Instr := none

end Sys2Proof
end

