-- ==== Sys2Proof/Machine/Table.lean ====
section
/-! DEFINITION. Sparse tables with Nat keys in one canonical form: keys strictly rising, and no entry equal to what
an unlisted key reads as. Every register file, memory and per-instance table of the machine is one. -/

namespace Sys2Proof.Machine

variable {α : Type}

/-- The value listed for `k`, if one is. -/
def tfind (k : Nat) : List (Nat × α) → Option α
  | [] => none
  | (j, v) :: t => if j = k then some v else tfind k t

/-- Reads key `k`: the listed value, or what an unlisted key reads as. -/
def tget (d : Nat → α) (t : List (Nat × α)) (k : Nat) : α := (tfind k t).getD (d k)

/-- Removes key `k`. -/
def tdel (k : Nat) (t : List (Nat × α)) : List (Nat × α) := t.filter fun e => e.1 != k

/-- Lists `v` at key `k`, in rising order. -/
def tins (k : Nat) (v : α) : List (Nat × α) → List (Nat × α)
  | [] => [(k, v)]
  | (j, w) :: t => if j = k then (k, v) :: t else if k < j then (k, v) :: (j, w) :: t else (j, w) :: tins k v t

/-- Writes key `k`; writing what an unlisted key reads as removes the entry. -/
def tset [DecidableEq α] (d : Nat → α) (t : List (Nat × α)) (k : Nat) (v : α) : List (Nat × α) :=
  if v = d k then tdel k t else tins k v t

/-- Changes the value at key `k`. -/
def tmod [DecidableEq α] (d : Nat → α) (t : List (Nat × α)) (k : Nat) (f : α → α) : List (Nat × α) :=
  tset d t k (f (tget d t k))

/-- The canonical form: keys strictly rising from `lo`, no entry equal to its default. -/
def twfFrom [DecidableEq α] (d : Nat → α) : Nat → List (Nat × α) → Bool
  | _, [] => true
  | lo, (k, v) :: t => decide (lo ≤ k) && decide (v ≠ d k) && twfFrom d (k + 1) t

/-- The canonical form of a whole table. -/
def twf [DecidableEq α] (d : Nat → α) (t : List (Nat × α)) : Bool := twfFrom d 0 t

end Sys2Proof.Machine
end

