-- ==== Sys2Proof/Machine/Bits.lean ====
section
/-! DEFINITION. Bit fields, sign extension, byte orders (R3, R4) and the two cyclic redundancy checks the spec gives
procedures for (R52, R108). -/

namespace Sys2Proof.Machine

/-- Bits [lo + w - 1 : lo] of a number. -/
def bits (n lo w : Nat) : Nat := (n >>> lo) % 2 ^ w

/-- One bit of a number. -/
def bit (n i : Nat) : Bool := n.testBit i

/-- A Bool as a bit. -/
def b2n (b : Bool) : Nat := if b then 1 else 0

/-- The field [lo + w - 1 : lo] of a word. -/
def getBits (v : W64) (lo w : Nat) : Nat := (v.toNat >>> lo) % 2 ^ w

/-- A word with the field [lo + w - 1 : lo] replaced by the low `w` bits of `n`. -/
def setBits (v : W64) (lo w n : Nat) : W64 :=
  (v &&& ~~~ BitVec.ofNat 64 ((2 ^ w - 1) <<< lo)) ||| BitVec.ofNat 64 ((n % 2 ^ w) <<< lo)

/-- A `w`-bit number read as two's complement. -/
def sgn (w n : Nat) : Int := if n % 2 ^ w < 2 ^ (w - 1) then (n % 2 ^ w : Nat) else (n % 2 ^ w : Nat) - (2 ^ w : Nat)

/-- An integer as a `w`-bit two's complement number. -/
def unsgn (w : Nat) (i : Int) : Nat := (i % (2 ^ w : Nat)).toNat

/-- Least significant byte first (R4, memory and control space). -/
def leNat : List Byte → Nat
  | [] => 0
  | b :: t => b.toNat + 256 * leNat t

/-- The `k` bytes of a number, least significant first. -/
def leBytes : Nat → Nat → List Byte
  | 0, _ => []
  | k + 1, n => BitVec.ofNat 8 n :: leBytes k (n / 256)

/-- Most significant byte first (R4, frames and messages). -/
def beNat (l : List Byte) : Nat := l.foldl (fun a b => a * 256 + b.toNat) 0

/-- The `k` bytes of a number, most significant first. -/
def beBytes (k n : Nat) : List Byte := (leBytes k n).reverse

/-- `k` bytes from offset `o` of a byte string, zero past its end. -/
def slice (l : List Byte) (o k : Nat) : List Byte :=
  let t := (l.drop o).take k
  t ++ List.replicate (k - t.length) 0

/-- The number at bytes o .. o+k-1, network order. -/
def beAt (l : List Byte) (o k : Nat) : Nat := beNat (slice l o k)

/-- The number at bytes o .. o+k-1, least significant byte first. -/
def leAt (l : List Byte) (o k : Nat) : Nat := leNat (slice l o k)

/-- A byte string with `v` written over it from offset `o`. -/
def patch (l : List Byte) (o : Nat) (v : List Byte) : List Byte :=
  l.take o ++ v ++ l.drop (o + v.length)

/-- One bit of a reflected CRC. -/
def crcBit (poly c : Nat) : Nat := if c % 2 = 1 then (c / 2) ^^^ poly else c / 2

/-- One byte of a reflected CRC. -/
def crcByte (poly c : Nat) (b : Byte) : Nat :=
  (List.range 8).foldl (fun c _ => crcBit poly c) (c ^^^ b.toNat)

/-- A reflected 32-bit CRC over a byte string, initial value and final complement all ones. -/
def crc32With (poly : Nat) (l : List Byte) : Nat := (l.foldl (crcByte poly) 0xFFFFFFFF) ^^^ 0xFFFFFFFF

/-- The IEEE 802.3 CRC-32 of R52. -/
def crc32 : List Byte → Nat := crc32With 0xEDB88320
/-- The CRC-32C of R108. -/
def crc32c : List Byte → Nat := crc32With 0x82F63B78

/-- Integer quotient rounded up. -/
def cdiv (a b : Nat) : Nat := (a + b - 1) / b

/-- Sets element `i` of a list. -/
def lset {α : Type} (l : List α) (i : Nat) (v : α) : List α := l.set i v

/-- Cuts a list into pieces of `n` (the last may be shorter), at most `fuel` of them. -/
def cut {α : Type} (n : Nat) : Nat → List α → List (List α)
  | 0, _ => []
  | fuel + 1, l => if l.isEmpty then [] else l.take n :: cut n fuel (l.drop n)

end Sys2Proof.Machine
end

