-- ==== Sys2Proof/Machine/Float.lean ====
section
/-! DEFINITION. Exact binary floating point: values as sign, integer significand and exponent, one rounding to nearest
with ties to even (subnormals kept), and the binary32 operations of R147, R149, R262 and R348 ff. -/

namespace Sys2Proof.Machine

/-- A floating-point datum: a NaN, an infinity, or the exact value (-1)^s * m * 2^e. -/
inductive FV where
  | nan
  | inf (s : Bool)
  | fin (s : Bool) (m : Nat) (e : Int)
  deriving DecidableEq, Repr

/-- The one NaN pattern that arithmetic produces (R147, R149, R262). -/
def qnan : W32 := 0x7FC00000

/-- The datum of a binary32 pattern. -/
def fdec (w : W32) : FV :=
  let n := w.toNat
  let s := n.testBit 31
  let e := bits n 23 8
  let m := bits n 0 23
  if e = 255 then (if m = 0 then .inf s else .nan)
  else if e = 0 then .fin s m (-149)
  else .fin s (m + 2 ^ 23) ((e : Int) - 150)

/-- m / 2^k rounded to nearest, ties to even. -/
def rneShift (m k : Nat) : Nat :=
  let q := m >>> k
  let r := m % 2 ^ k
  if k = 0 then m
  else if 2 * r > 2 ^ k then q + 1
  else if 2 * r = 2 ^ k then q + q % 2
  else q

/-- m * 2^e rounded to `prec` bits with the smallest quantum 2^qmin: the significand and its exponent. -/
def roundTo (prec : Nat) (qmin : Int) (m : Nat) (e : Int) : Nat × Int :=
  if m = 0 then (0, qmin) else
  let q := max qmin ((Nat.log2 m : Int) + e - ((prec : Int) - 1))
  if q ≤ e then (m <<< (e - q).toNat, q) else (rneShift m (q - e).toNat, q)

/-- (-1)^s * m * 2^e rounded to binary32. -/
def fround (s : Bool) (m : Nat) (e : Int) : W32 :=
  let (k, q) := roundTo 24 (-149) m e
  let b := (q + 149).toNat * 2 ^ 23 + k
  BitVec.ofNat 32 ((if b ≥ 0x7F800000 then 0x7F800000 else b) + (if s then 2 ^ 31 else 0))

/-- A datum as a binary32 pattern, rounded. -/
def fenc : FV → W32
  | .nan => qnan
  | .inf s => if s then 0xFF800000 else 0x7F800000
  | .fin s m e => fround s m e

/-- The exact sum of two data; a sum of opposite infinities is a NaN; an exact zero of opposite signs is +0. -/
def fvAdd : FV → FV → FV
  | .nan, _ => .nan
  | _, .nan => .nan
  | .inf s, .inf t => if s = t then .inf s else .nan
  | .inf s, .fin _ _ _ => .inf s
  | .fin _ _ _, .inf t => .inf t
  | .fin s m e, .fin t n f =>
    let g := min e f
    let a : Int := (m <<< (e - g).toNat : Nat)
    let b : Int := (n <<< (f - g).toNat : Nat)
    let v := (if s then -a else a) + (if t then -b else b)
    if v = 0 then .fin (s && t) 0 g else .fin (decide (v < 0)) v.natAbs g

/-- The exact product. -/
def fvMul : FV → FV → FV
  | .nan, _ => .nan
  | _, .nan => .nan
  | .inf s, .inf t => .inf (s != t)
  | .inf s, .fin t n _ => if n = 0 then .nan else .inf (s != t)
  | .fin s m _, .inf t => if m = 0 then .nan else .inf (s != t)
  | .fin s m e, .fin t n f => .fin (s != t) (m * n) (e + f)

/-- The quotient, with enough bits and a sticky bit for one rounding to 32 bits or fewer. -/
def fvDiv : FV → FV → FV
  | .nan, _ => .nan
  | _, .nan => .nan
  | .inf _, .inf _ => .nan
  | .inf s, .fin t _ _ => .inf (s != t)
  | .fin s _ _, .inf t => .fin (s != t) 0 0
  | .fin s m e, .fin t n f =>
    if n = 0 then (if m = 0 then .nan else .inf (s != t))
    else
      let a := m <<< 96
      .fin (s != t) (2 * (a / n) + (if a % n = 0 then 0 else 1)) (e - f - 97)

/-- Negation. -/
def fvNeg : FV → FV
  | .nan => .nan
  | .inf s => .inf (!s)
  | .fin s m e => .fin (!s) m e

/-- Whether a ≤ b under IEEE comparison (false when either is a NaN). -/
def fvLe : FV → FV → Bool
  | .nan, _ => false
  | _, .nan => false
  | .inf s, .inf t => s || !t
  | .inf s, .fin _ _ _ => s
  | .fin _ _ _, .inf t => !t
  | .fin s m e, .fin t n f =>
    let g := min e f
    let a : Int := (m <<< (e - g).toNat : Nat)
    let b : Int := (n <<< (f - g).toNat : Nat)
    decide ((if s then -a else a) ≤ (if t then -b else b))

def fadd (a b : W32) : W32 := fenc (fvAdd (fdec a) (fdec b))
def fsub (a b : W32) : W32 := fenc (fvAdd (fdec a) (fvNeg (fdec b)))
def fmul (a b : W32) : W32 := fenc (fvMul (fdec a) (fdec b))
def fdiv (a b : W32) : W32 := fenc (fvDiv (fdec a) (fdec b))
def fle (a b : W32) : Bool := fvLe (fdec a) (fdec b)
def flt (a b : W32) : Bool := fle a b && !fle b a

/-- Whether a pattern is a NaN. -/
def isNan (w : W32) : Bool := match fdec w with | .nan => true | _ => false
/-- Whether a pattern is finite. -/
def isFin (w : W32) : Bool := match fdec w with | .fin _ _ _ => true | _ => false

/-- The larger of two data, a NaN winning (R148). Assumption log 68 (DESIGN CHOICE). -/
def fmaxNan (a b : W32) : W32 := if isNan a || isNan b then qnan else if fle a b then b else a

/-- A number, rounded to binary32. -/
def fofNat (n : Nat) : W32 := fround false n 0

/-! ### exp -/

/-- The largest M below 2^(i+1) + acc with M^256 ≤ 2^t, bit by bit. -/
def root256 (t : Nat) : Nat → Nat → Nat
  | 0, acc => if (acc + 1) ^ 256 ≤ 2 ^ t then acc + 1 else acc
  | i + 1, acc => root256 t i (if (acc + 2 ^ (i + 1)) ^ 256 ≤ 2 ^ t then acc + 2 ^ (i + 1) else acc)

/-- T[j] of R149: 2^(j/256) rounded to binary32. -/
def expTable (j : Nat) : W32 :=
  let m := root256 (23 * 256 + j) 24 0
  let m := if (2 * m + 1) ^ 256 ≤ 2 ^ (24 * 256 + j) then m + 1 else m
  fround false m (-23)

/-- floor of a finite datum. -/
def fvFloor : FV → Int
  | .fin s m e =>
    if 0 ≤ e then (let v : Int := (m <<< e.toNat : Nat); if s then -v else v)
    else
      let k := (-e).toNat
      if s then -((m + (2 ^ k - 1)) >>> k : Nat) else (m >>> k : Nat)
  | _ => 0

/-- An integer as a datum. -/
def fvInt (i : Int) : FV := .fin (decide (i < 0)) i.natAbs 0

/-- exp(x) by the procedure of R149. -/
def fexp (x : W32) : W32 :=
  if isNan x then qnan else
  let z := fmul x 0x3FB8AA3B
  if fle 0x43000000 z then 0x7F800000
  else if flt z 0xC3160000 then 0
  else
    let n := fvFloor (fdec z)
    let f := fenc (fvAdd (fdec z) (fvNeg (fvInt n)))
    let one := f = 0x3F800000
    let f := if one then 0 else f
    let n := if one then n + 1 else n
    let u := fvMul (fdec f) (fvInt 256)
    let j := (fvFloor u).toNat
    let q := fenc (fvAdd u (fvNeg (fvInt j)))
    let t := expTable j
    let m := fadd t (fmul q (fsub (expTable (j + 1)) t))
    match fdec m with
    | .fin s k e => fround s k (e + n)
    | v => fenc v

end Sys2Proof.Machine
end

