-- ==== Sys2Proof/Config.lean ====
section
/-! DEFINITION. What the spec leaves open or takes from a standard it only names: constants without a body. Nothing in
Lean can evaluate one of them, so a statement holds whatever its value. Assumption log: notes/assumptions/. -/

namespace Sys2Proof.Config

/-- The n-th value drawn from the security engine's random source (R431), as a number.
Assumption log 16 (DESIGN CHOICE). -/
opaque random : Nat → Nat

/-- SHA-384 of a byte string, 48 bytes (named by R130, R153, R423; no procedure in the spec).
Assumption log 16 (DESIGN CHOICE). -/
opaque sha384 : List Byte → List Byte

/-- ECDSA P-384 verification of a 96-byte signature over a digest under the key with coordinates x and y.
Assumption log 16 (DESIGN CHOICE). -/
opaque ecdsaP384 : (x y : Nat) → (digest sig : List Byte) → Bool

/-- The public point of a P-384 private key, 96 bytes. Assumption log 16 (DESIGN CHOICE). -/
opaque p384Public : (priv : Nat) → List Byte

/-- ECDH P-384 shared secret of a private key and a peer's 96-byte point. Assumption log 16 (DESIGN CHOICE). -/
opaque p384Shared : (priv : Nat) → (peer : List Byte) → List Byte

/-- An ECDSA P-384 signature under a private key. Assumption log 16 (DESIGN CHOICE). -/
opaque ecdsaSign : (priv : Nat) → (digest : List Byte) → List Byte

/-- HKDF-SHA384: `len` bytes from a secret, a salt and an info string. Assumption log 16 (DESIGN CHOICE). -/
opaque hkdf : (secret salt info : List Byte) → (len : Nat) → List Byte

/-- Whether a certificate chain (DER) is anchored in a root hash: the public key it certifies, if it is.
Assumption log 16 (DESIGN CHOICE). -/
opaque chainKey : (rootHash chain : List Byte) → Option (Nat × Nat)

/-- The module number a certificate chain carries. Assumption log 16 (DESIGN CHOICE). -/
opaque chainSerial : (chain : List Byte) → Nat

/-- SHA-384 of the SubjectPublicKeyInfo of a certificate chain's leaf. Assumption log 16 (DESIGN CHOICE). -/
opaque leafHash : (chain : List Byte) → List Byte

/-- AES-256-GCM seal: ciphertext and 16-byte tag. Assumption log 16 (DESIGN CHOICE). -/
opaque gcmSeal : (key iv aad plain : List Byte) → List Byte × List Byte

/-- The code a clamp with a NaN bound gives (R298 orders the bounds by value and a NaN has none).
Assumption log 67 (DESIGN CHOICE). -/
opaque nanClamp : (lo hi code : Nat) → Nat

/-- The ADDRESS of the crow's nest's doorbell ring, which the replicated state names (R385) in a place the spec does not
lay out. Assumption log 109 (DESIGN CHOICE). -/
opaque nestBell : Nat

/-- Offset, from a replica's address (R398), of an item of the crow's nest state for a module: the spec lists the items
and lays out none but the lease word's fields (items: 0 heartbeat word, 1 lease word, 2 version word).
Assumption log 109 (DESIGN CHOICE). -/
opaque nestWord : (item module : Nat) → Nat

/-- The zero that MAX of two zeros of opposite signs gives. Assumption log 68 (DESIGN CHOICE). -/
opaque zeroMax : (a b : W32) → W32

/-- The master scale that R309's bounds give a product that is a NaN (a step factor that is one).
Assumption log 140 (DESIGN CHOICE). -/
opaque nanScale : (floor : W32) → W32

/-- The n-th byte whose value the spec leaves undefined (R352). Assumption log 141 (DESIGN CHOICE). -/
opaque freeByte : (n : Nat) → Byte

end Sys2Proof.Config
end

