-- ==== Sys2Proof/Machine/Formats.lean ====
section
/-! DEFINITION. Number formats (spec ch. 10): bfloat16, FP8, YQ8 and YQ4, conversion from binary32 to a code (R278,
R279, R298), expansion from a code to bfloat16 (R280), and the census outcomes saturate and underflow (R279, R303). -/

namespace Sys2Proof.Machine

/-- Format encodings (Table 9.2). -/
abbrev fmBf16 : Nat := 0
abbrev fmE4m3 : Nat := 1
abbrev fmE5m2 : Nat := 2
abbrev fmYq8 : Nat := 3
abbrev fmYq4 : Nat := 4

/-- Element bits of a format (Table 9.2). -/
def fmtBits (f : Nat) : Nat := if f = fmBf16 then 16 else if f = fmYq4 then 4 else 8

/-- Vectors in one 32-byte unit, U (Table 9.2). -/
def fmtU (f : Nat) : Nat := 16 / fmtBits f

/-- Whether a format is one of the YQ grids. -/
def isYq (f : Nat) : Bool := f = fmYq8 || f = fmYq4

/-- The datum of a bfloat16 pattern (Table 10.1). -/
def bfDec (n : Nat) : FV := fdec (BitVec.ofNat 32 (n * 65536))

/-- A datum rounded to bfloat16 (R278). -/
def bfEnc : FV → Nat
  | .nan => 0x7FC0
  | .inf s => if s then 0xFF80 else 0x7F80
  | .fin s m e =>
    let (k, q) := roundTo 8 (-133) m e
    let b := (q + 133).toNat * 2 ^ 7 + k
    (if b ≥ 0x7F80 then 0x7F80 else b) + (if s then 2 ^ 15 else 0)

/-- A bfloat16 pattern as the binary32 of the same value. -/
def bfWide (n : Nat) : W32 := BitVec.ofNat 32 (n * 65536)

/-- The datum of an FP8 pattern (R275). -/
def fp8Dec (e5 : Bool) (n : Nat) : FV :=
  let s := n.testBit 7
  if e5 then
    let e := bits n 2 5
    let m := bits n 0 2
    if e = 31 then (if m = 0 then .inf s else .nan)
    else if e = 0 then .fin s m (-16) else .fin s (4 + m) ((e : Int) - 17)
  else
    let e := bits n 3 4
    let m := bits n 0 3
    if e = 15 ∧ m = 7 then .nan
    else if e = 0 then .fin s m (-9) else .fin s (8 + m) ((e : Int) - 10)

/-- A datum converted to FP8 with saturation (R278). -/
def fp8Enc (e5 : Bool) : FV → Nat
  | .nan => 0x7F
  | .inf s => (if e5 then 0x7C else 0x7E) + (if s then 0x80 else 0)
  | .fin s m e =>
    let (k, q) := if e5 then roundTo 3 (-16) m e else roundTo 4 (-9) m e
    let b := if e5 then (q + 16).toNat * 4 + k else (q + 9).toNat * 8 + k
    min b (if e5 then 0x7B else 0x7E) + (if s then 0x80 else 0)

/-- Codes 8 to 15 of the YQ4 grid as bfloat16 (Table 10.2). -/
def yq4Pos (j : Nat) : Nat :=
  match j with
  | 0 => 0x3DBC
  | 1 => 0x3E3E
  | 2 => 0x3E92
  | 3 => 0x3ECB
  | 4 => 0x3F07
  | 5 => 0x3F33
  | 6 => 0x3F80
  | _ => 0x3FC0

/-- The YQ4 grid (Table 10.2): symmetric about code 7. -/
def yq4Point (c : Nat) : Nat :=
  if c = 7 then 0 else if 7 < c then yq4Pos (c - 8) else yq4Pos (6 - c) + 0x8000

/-- Codes 128 to 254 of the YQ8 grid as bfloat16: the normal quantiles of R277, evaluated and rounded once.
Assumption log 69 (DEDUCED). -/
def yq8Pos : List Nat :=
  [0x3B5F, 0x3BDF, 0x3C28, 0x3C5F, 0x3C8C, 0x3CA8, 0x3CC4, 0x3CE0, 0x3CFC, 0x3D0C, 0x3D1A, 0x3D28, 0x3D36, 0x3D44, 0x3D52, 0x3D60] ++
  [0x3D6E, 0x3D7D, 0x3D85, 0x3D8D, 0x3D94, 0x3D9B, 0x3DA2, 0x3DA9, 0x3DB0, 0x3DB7, 0x3DBF, 0x3DC6, 0x3DCD, 0x3DD5, 0x3DDC, 0x3DE3] ++
  [0x3DEB, 0x3DF2, 0x3DF9, 0x3E00, 0x3E04, 0x3E08, 0x3E0C, 0x3E0F, 0x3E13, 0x3E17, 0x3E1B, 0x3E1F, 0x3E23, 0x3E26, 0x3E2A, 0x3E2E] ++
  [0x3E32, 0x3E36, 0x3E3A, 0x3E3E, 0x3E42, 0x3E46, 0x3E4A, 0x3E4F, 0x3E53, 0x3E57, 0x3E5B, 0x3E5F, 0x3E64, 0x3E68, 0x3E6C, 0x3E71] ++
  [0x3E75, 0x3E79, 0x3E7E, 0x3E81, 0x3E83, 0x3E86, 0x3E88, 0x3E8A, 0x3E8D, 0x3E8F, 0x3E92, 0x3E94, 0x3E97, 0x3E99, 0x3E9C, 0x3E9E] ++
  [0x3EA1, 0x3EA4, 0x3EA6, 0x3EA9, 0x3EAC, 0x3EAF, 0x3EB1, 0x3EB4, 0x3EB7, 0x3EBA, 0x3EBD, 0x3EC0, 0x3EC4, 0x3EC7, 0x3ECA, 0x3ECD] ++
  [0x3ED1, 0x3ED4, 0x3ED8, 0x3EDC, 0x3EE0, 0x3EE3, 0x3EE8, 0x3EEC, 0x3EF0, 0x3EF4, 0x3EF9, 0x3EFE, 0x3F01, 0x3F04, 0x3F07, 0x3F09] ++
  [0x3F0C, 0x3F10, 0x3F13, 0x3F16, 0x3F1A, 0x3F1E, 0x3F23, 0x3F28, 0x3F2D, 0x3F33, 0x3F3B, 0x3F44, 0x3F4F, 0x3F60, 0x3F80]

/-- The YQ8 grid (R277): symmetric about code 127, with the tail point 1.5 at code 255. -/
def yq8Point (c : Nat) : Nat :=
  if c = 127 then 0
  else if c = 255 then 0x3FC0
  else if 127 < c then yq8Pos.getD (c - 128) 0
  else yq8Pos.getD (126 - c) 0 + 0x8000

/-- The zero code of a YQ format (R279). -/
def yqZero (f : Nat) : Nat := if f = fmYq4 then 7 else 127

/-- G(x): the datum of a code (Table 10.1). -/
def codeVal (f c : Nat) : FV :=
  if f = fmBf16 then bfDec c
  else if f = fmE4m3 then fp8Dec false c
  else if f = fmE5m2 then fp8Dec true c
  else if f = fmYq8 then bfDec (yq8Point c)
  else bfDec (yq4Point c)

/-- |x|. -/
def fvAbs : FV → FV
  | .nan => .nan
  | .inf _ => .inf false
  | .fin _ m e => .fin false m e

/-- a < b (false with a NaN). -/
def fvLt (a b : FV) : Bool := fvLe a b && !fvLe b a
/-- a = b in value. -/
def fvEq (a b : FV) : Bool := fvLe a b && fvLe b a
/-- Whether a datum is zero. -/
def fvZero : FV → Bool
  | .fin _ m _ => decide (m = 0)
  | _ => false
/-- Whether a datum is finite. -/
def fvFin : FV → Bool
  | .fin _ _ _ => true
  | _ => false
/-- Whether a datum is a NaN. -/
def fvNan : FV → Bool
  | .nan => true
  | _ => false

/-- The exact distance of two finite data. -/
def fvDist (a b : FV) : FV := fvAbs (fvAdd a (fvNeg b))

/-- R279: the available code (from `lo` on, `n` more of them) nearest to t; a tie goes to the larger magnitude. -/
def nearestFrom (f : Nat) (t : FV) : Nat → Nat → Nat → Nat
  | 0, _, best => best
  | n + 1, c, best =>
    let db := fvDist t (codeVal f best)
    let dc := fvDist t (codeVal f c)
    let better := fvLt dc db || (fvEq dc db && fvLt (fvAbs (codeVal f best)) (fvAbs (codeVal f c)))
    nearestFrom f t n (c + 1) (if better then c else best)

/-- R279 over the codes lo to hi of a YQ grid. -/
def yqNearest (f lo hi : Nat) (t : FV) : Nat :=
  match t with
  | .nan => yqZero f
  | .inf s => if s then lo else hi
  | t => nearestFrom f t (hi - lo) (lo + 1) lo

/-- The last available code of a YQ format (R279). -/
def yqTop (f : Nat) (priv : Bool) : Nat := if f = fmYq8 then 255 else if priv then 14 else 15

/-- A datum converted to a code of any operand format (R278, R279), without a clamp. -/
def toCode (f : Nat) (t : FV) : Nat :=
  if f = fmBf16 then bfEnc t
  else if f = fmE4m3 then fp8Enc false t
  else if f = fmE5m2 then fp8Enc true t
  else yqNearest f 0 (yqTop f false) t

/-- The largest finite magnitude of an FP8 format (R275). -/
def fp8Max (e5 : Bool) : FV := if e5 then .fin false 57344 0 else .fin false 448 0

/-- Whether an element saturates (R279, R303): a YQ element outside the available points, an FP8 element infinite or
beyond the largest finite magnitude. A NaN never does. -/
def saturates (f lo hi : Nat) (t : FV) : Bool :=
  if fvNan t then false
  else if isYq f then fvLt t (codeVal f lo) || fvLt (codeVal f hi) t
  else if f = fmBf16 then false
  else fvLt (fp8Max (f = fmE5m2)) (fvAbs t)

/-- Whether an element underflows (R279, R303): finite, not zero, and written as zero. -/
def underflows (f : Nat) (t : FV) (code : Nat) : Bool := fvFin t && !fvZero t && fvZero (codeVal f code)

/-- The code R298 writes: converted, then clamped in order of value; a NaN code is not clamped, CLAMP is ignored for
bfloat16, and with CLAMP_LO above CLAMP_HI every element that is not a NaN takes CLAMP_LO. A bound that is itself a NaN
has no place in the order of values: the result is then open (Config.nanClamp). -/
def rescaleCode (f lo hi : Nat) (t : FV) : Nat :=
  let c := toCode f t
  if f = fmBf16 || fvNan (codeVal f c) then c
  else if isYq f && fvNan t then c
  else if fvNan (codeVal f lo) || fvNan (codeVal f hi) then Config.nanClamp lo hi c
  else if fvLt (codeVal f hi) (codeVal f lo) then lo
  else if fvLt (codeVal f c) (codeVal f lo) then lo
  else if fvLt (codeVal f hi) (codeVal f c) then hi
  else c

/-- Whether a rescaled element saturates (R298, R303): a change made by the clamp included for the YQ formats. -/
def rescaleSat (f lo hi : Nat) (t : FV) (code : Nat) : Bool :=
  saturates f 0 (yqTop f false) t || (isYq f && !fvNan t && (saturates f lo hi t || code != toCode f t))

/-- The entry of a scale sheet that an element expands through (R280): S and Z as bfloat16, block exponent E. -/
structure SheetEntry where
  s : Nat
  z : Nat
  e : Int := 0
  activation : Bool := false
  priv : Bool := false
  deriving DecidableEq, Repr

/-- The bfloat16 value of a code (Table 10.3). -/
def expandCode (f c : Nat) (sh : Option SheetEntry) : Nat :=
  match sh with
  | none => bfEnc (codeVal f c)
  | some k =>
    if k.s % 2 ^ 15 = 0 then k.z
    else if k.priv ∧ c = 15 then 0
    else
      let p := fvMul (fvMul (bfDec k.s) (.fin false 1 k.e)) (codeVal f c)
      bfEnc (if k.activation then fvAdd p (bfDec k.z) else fvAdd p (.fin false 0 0))

/-- Element `e` of a 32-byte unit (R254). -/
def unitElem (f e : Nat) (d : List Byte) : Nat :=
  if f = fmYq4 then bits (leAt d (e / 2) 1) (4 * (e % 2)) 4
  else if f = fmBf16 then leAt d (2 * e) 2
  else leAt d e 1

/-- The bytes of a list of codes (R274). -/
def packCodes (f : Nat) (cs : List Nat) : List Byte :=
  if f = fmBf16 then cs.flatMap (leBytes 2)
  else if f = fmYq4 then (cut 2 (cs.length + 1) cs).map fun p => BitVec.ofNat 8 (p.getD 0 0 + 16 * p.getD 1 0)
  else cs.map fun c => BitVec.ofNat 8 c

/-- The least integer e from `lo` on (at most `fuel` above it) with 2^e * pmax ≥ a (R309, R314). -/
def leastExp (a pmax : FV) : Nat → Int → Int
  | 0, e => e
  | n + 1, e => if fvLe a (fvMul (.fin false 1 e) pmax) then e else leastExp a pmax n (e + 1)

/-- p_max of a format (R309): 1.0 for the YQ grids, the largest finite value of FP8. -/
def pMax (f : Nat) : FV :=
  if f = fmE4m3 then fp8Max false else if f = fmE5m2 then fp8Max true else .fin false 1 0

/-! ### The array's chain (R262, R263) -/

/-- One term of the 16-term chain. -/
def chainStep (s : Option W32) (t : Nat × Nat) : Option W32 :=
  let pr := fmul (bfWide t.1) (bfWide t.2)
  match s with
  | none => some pr
  | some s => some (fadd s pr)

/-- The chain of a K-tile over its unmasked terms: none when every term is masked. -/
def chain (ts : List (Nat × Nat)) : Option W32 := ts.foldl chainStep none

end Sys2Proof.Machine
end

