-- ==== Sys2Proof/Machine/Regs.lean ====
section
/-! DEFINITION. The control-space registers of the spec: where each lies (namespace `R`), its named fields
(namespace `F`), and one row per register with the access type of each of its bits and its reset value
(`regTable`). Offsets are control-space offsets; a register that repeats takes the instance numbers as arguments.
Written from the register tables of spec/ by a script that reads the tables. -/

namespace Sys2Proof.Machine

/-- One row of the register tables: first offset, (stride, count) of each instance index, width in bits, and the
bits that are RW, W1C, W1S, RC, the bits whose Reset column says cfg, and the reset value of the others. -/
structure RegDesc where
  base : Nat
  dims : List (Nat × Nat)
  width : Nat
  rw : Nat
  w1c : Nat
  w1s : Nat
  rc : Nat
  cfg : Nat
  reset : Nat
  deriving DecidableEq, Repr

/-- A field of one register: the register's control-space offset, its lowest bit and its width. -/
structure Fld where
  off : Nat
  lo : Nat
  width : Nat
  deriving DecidableEq, Repr

namespace R

/-- Table 1.11. -/
def IDENT : Nat := 0x0
/-- Table 1.12. -/
def SERIAL : Nat := 0x8
/-- Table 1.13. -/
def MODULE_NUMBER : Nat := 0x10
/-- Table 1.14. -/
def FUSE_STATUS : Nat := 0x14
/-- Table 1.15. -/
def MODULE_STATE : Nat := 0x18
/-- Table 1.17. -/
def DECODE_ERR : Nat := 0x40
/-- Table 1.18. -/
def DECODE_ERR_ADDR : Nat := 0x48
/-- Table 1.20. -/
def DECODE_ERR_COUNT : Nat := 0x50
/-- Table 19.3. -/
def GL_SUMMARY : Nat := 0x100
/-- Table 19.4. -/
def GL_SUMMARY_ENABLE : Nat := 0x108
/-- Table 19.4. -/
def GL_ALERT_MASK : Nat := 0x110
/-- Table 19.5. -/
def GL_RING_PENDING (p : Nat) : Nat := 0x1000 + p * 0x8
/-- Table 16.7. -/
def BOOT_STATUS : Nat := 0x100000
/-- Table 16.8. -/
def BOOT_RESET_CAUSE : Nat := 0x100004
/-- Table 16.9. -/
def BOOT_IMG_SEQ : Nat := 0x100008
/-- Table 16.10. -/
def BOOT_TIMES : Nat := 0x100010
/-- Table 16.11. -/
def BOOT_REFUSE_REC : Nat := 0x100018
/-- Table 16.12. -/
def BOOT_START_CFG : Nat := 0x100020
/-- Table 16.13. -/
def BOOT_WDT_CFG : Nat := 0x100024
/-- Table 16.14. -/
def BOOT_WDT_KICK : Nat := 0x100028
/-- Table 16.15. -/
def BOOT_RESTART : Nat := 0x10002c
/-- Table 16.16. -/
def BOOT_EVENTS : Nat := 0x100040
/-- Table 16.17. -/
def BOOT_EVENTS_REOCC : Nat := 0x100044
/-- Table 16.18. -/
def BOOT_PRE_READY_DROPS : Nat := 0x100050
/-- Table 15.10. -/
def SEC_STATUS : Nat := 0x200000
/-- Table 15.11. -/
def SEC_IMG_RESULT : Nat := 0x200004
/-- Table 15.12. -/
def SEC_SVN : Nat := 0x200008
/-- Table 15.13. -/
def SEC_SVN_ADVANCE : Nat := 0x20000c
/-- Table 15.14. -/
def SEC_CERT_LEN : Nat := 0x200010
/-- Table 15.15. -/
def SEC_EVENTS : Nat := 0x200040
/-- Table 15.16. -/
def SEC_EVENTS_REOCC : Nat := 0x200044
/-- Table 15.17. -/
def SEC_ATTEST_ERR_REC : Nat := 0x200050
/-- Table 15.19. -/
def SEC_COUNT (p : Nat) : Nat := 0x200100 + p * 0x8
/-- Table 15.20. -/
def SEC_ROOT_HASH (p : Nat) : Nat := 0x201000 + p * 0x8
/-- Table 15.21. -/
def SEC_OPKEY (p : Nat) (q : Nat) : Nat := 0x202000 + p * 0x80 + q * 0x8
/-- Table 17.4. -/
def CLK_STATUS : Nat := 0x300000
/-- Table 17.5. -/
def CLK_N_CAP : Nat := 0x300004
/-- Table 17.6. -/
def CLK_RATES : Nat := 0x300008
/-- Table 17.7. -/
def AGE_CFG : Nat := 0x300010
/-- Table 17.8. -/
def AGE_LOG_IDX : Nat := 0x300014
/-- Table 17.9. -/
def AGE_EVENTS : Nat := 0x300040
/-- Table 17.10. -/
def AGE_EVENTS_REOCC : Nat := 0x300044
/-- Table 17.11. -/
def AGE_RAIL (p : Nat) : Nat := 0x300080 + p * 0x8
/-- Table 17.12. -/
def PWR_CFG : Nat := 0x300100
/-- Table 17.13. -/
def PWR_STATUS : Nat := 0x300108
/-- Table 17.14. -/
def PWR_THERM_STATUS : Nat := 0x300110
/-- Table 17.15. -/
def PWR_EVENTS : Nat := 0x300140
/-- Table 17.16. -/
def PWR_EVENTS_REOCC : Nat := 0x300144
/-- R412, R381 or Table 17.17. -/
def PWR_COUNT (p : Nat) : Nat := 0x300180 + p * 0x8
/-- Table 17.18. -/
def AGE_MON (p : Nat) : Nat := 0x301000 + p * 0x8
/-- Table 17.19. -/
def AGE_LOG (p : Nat) : Nat := 0x302000 + p * 0x8
/-- Table 2.8. -/
def ETH_PORT_CTRL (p : Nat) : Nat := 0x400000 + p * 0x10000
/-- Table 2.9. -/
def ETH_PORT_STATUS (p : Nat) : Nat := 0x400004 + p * 0x10000
/-- Table 2.10. -/
def ETH_MAX_FRAME (p : Nat) : Nat := 0x400008 + p * 0x10000
/-- Table 2.11. -/
def ETH_FC_THRESH (p : Nat) : Nat := 0x400010 + p * 0x10000
/-- Table 2.12. -/
def ETH_FC_TX (p : Nat) : Nat := 0x400014 + p * 0x10000
/-- Table 2.13. -/
def ETH_FC_STATE (p : Nat) : Nat := 0x400018 + p * 0x10000
/-- Table 2.14. -/
def ETH_PREEMPT_CTRL (p : Nat) : Nat := 0x400020 + p * 0x10000
/-- Table 2.15. -/
def ETH_PREEMPT_STATUS (p : Nat) : Nat := 0x400024 + p * 0x10000
/-- Table 2.16. -/
def ETH_ETYPE_ACCEPT (p : Nat) (q : Nat) : Nat := 0x400030 + p * 0x10000 + q * 0x4
/-- Table 2.17. -/
def ETH_TS_CORR (p : Nat) : Nat := 0x400080 + p * 0x10000
/-- Table 2.18. -/
def ETH_UCAST (p : Nat) (q : Nat) : Nat := 0x400100 + p * 0x10000 + q * 0x8
/-- Table 2.19. -/
def ETH_GHASH (p : Nat) (q : Nat) : Nat := 0x400200 + p * 0x10000 + q * 0x4
/-- Table 2.20. -/
def ETH_PORT_EVENTS (p : Nat) : Nat := 0x400300 + p * 0x10000
/-- Table 2.21. -/
def ETH_PORT_EVENTS_REOCC (p : Nat) : Nat := 0x400304 + p * 0x10000
/-- Table 2.22. -/
def ETH_CNT_CTRL (p : Nat) : Nat := 0x400310 + p * 0x10000
/-- Table 2.23. -/
def ETH_PTP_NS : Nat := 0x400400
/-- Table 2.24. -/
def ETH_PTP_FRAC : Nat := 0x400404
/-- Table 2.25. -/
def ETH_PTP_SEC : Nat := 0x400408
/-- Table 2.26. -/
def ETH_PTP_RATE : Nat := 0x400410
/-- Table 2.27. -/
def ETH_PTP_STEP : Nat := 0x400414
/-- Table 2.28. -/
def ETH_COUNTER (p : Nat) (q : Nat) : Nat := 0x600000 + p * 0x1000 + q * 0x8
/-- Table 2.29. -/
def ETH_HALF_STATUS (p : Nat) : Nat := 0x600800 + p * 0x1000
/-- Table 2.30. -/
def ETH_HALF_ENABLE (p : Nat) : Nat := 0x600808 + p * 0x1000
/-- Table 2.31. -/
def ETH_HALF_REOCC (p : Nat) : Nat := 0x600810 + p * 0x1000
/-- Table 2.32. -/
def ETH_COMPAT (p : Nat) (q : Nat) : Nat := 0x700000 + p * 0x100 + q * 0x4
/-- Table 3.9. -/
def RING_BASE (p : Nat) : Nat := 0x800000 + p * 0x40
/-- Table 3.10. -/
def RING_CFG (p : Nat) : Nat := 0x800008 + p * 0x40
/-- Table 3.11. -/
def RING_MASK (p : Nat) : Nat := 0x80000c + p * 0x40
/-- Table 3.12. -/
def RING_DEV_IDX (p : Nat) : Nat := 0x800010 + p * 0x40
/-- Table 3.13. -/
def RING_SW_IDX (p : Nat) : Nat := 0x800014 + p * 0x40
/-- Table 3.14. -/
def RING_DONE_COUNT (p : Nat) : Nat := 0x800018 + p * 0x40
/-- Table 3.15. -/
def RING_NOBUF_DROPS (p : Nat) : Nat := 0x800020 + p * 0x40
/-- Table 3.16. -/
def RING_STATUS (p : Nat) : Nat := 0x800024 + p * 0x40
/-- Table 3.17. -/
def RING_STATUS_REOCC (p : Nat) : Nat := 0x800028 + p * 0x40
/-- Table 3.18. -/
def RING_IRQ_CTRL (p : Nat) : Nat := 0x80002c + p * 0x40
/-- Table 3.19. -/
def RING_ERR_COUNT (p : Nat) : Nat := 0x800030 + p * 0x40
/-- Table 3.20. -/
def RING_IDX_MIRROR (p : Nat) : Nat := 0x800038 + p * 0x40
/-- Table 4.16. -/
def HLY_CTRL : Nat := 0xc00000
/-- Table 4.17. -/
def HLY_ETYPE : Nat := 0xc00004
/-- Table 4.18. -/
def HLY_UDP : Nat := 0xc00008
/-- Table 4.19. -/
def HLY_TX : Nat := 0xc0000c
/-- Table 4.20. -/
def HLY_ECHO_WINDOW : Nat := 0xc00010
/-- Table 4.21. -/
def HLY_UPD_TIMEOUT : Nat := 0xc00014
/-- Table 4.22. -/
def HLY_LEDGER_OCC : Nat := 0xc00018
/-- Table 4.23. -/
def HLY_BOOT_NONCE : Nat := 0xc00020
/-- Table 4.24. -/
def HLY_EVENTS : Nat := 0xc00040
/-- Table 4.25. -/
def HLY_EVENTS_REOCC : Nat := 0xc00044
/-- Table 4.26. -/
def HLY_CTRL_LAST_ID (p : Nat) : Nat := 0xc00080 + p * 0x8
/-- Table 4.28. -/
def HLY_COUNT (p : Nat) : Nat := 0xc00100 + p * 0x8
/-- Table 4.29. -/
def TPL_CFG (p : Nat) : Nat := 0xc10000 + p * 0x400
/-- Table 4.30. -/
def TPL_KEY (p : Nat) (q : Nat) : Nat := 0xc10040 + p * 0x400 + q * 0x8
/-- Table 4.31. -/
def TPL_FIELD (p : Nat) (q : Nat) : Nat := 0xc10100 + p * 0x400 + q * 0x8
/-- Table 5.14. -/
def TEU_QUEUE_OCC : Nat := 0xd00000
/-- Table 5.15. -/
def TEU_STAGE_BLOCKS (p : Nat) : Nat := 0xd00010 + p * 0x4
/-- Table 5.16. -/
def TEU_EVENTS : Nat := 0xd00040
/-- Table 5.17. -/
def TEU_EVENTS_REOCC : Nat := 0xd00044
/-- Table 5.18. -/
def TEU_FREE_MIN (p : Nat) : Nat := 0xd00080 + p * 0x4
/-- Table 5.20. -/
def TEU_COUNT (p : Nat) : Nat := 0xd00100 + p * 0x8
/-- Table 5.21. -/
def SLOT_CFG (p : Nat) : Nat := 0xd01000 + p * 0x20
/-- Table 5.22. -/
def SLOT_STATUS (p : Nat) : Nat := 0xd01004 + p * 0x20
/-- Table 5.23. -/
def SLOT_TREES (p : Nat) : Nat := 0xd01008 + p * 0x20
/-- Table 5.24. -/
def SLOT_NODES (p : Nat) : Nat := 0xd0100c + p * 0x20
/-- Table 5.25. -/
def SLOT_VERSION (p : Nat) : Nat := 0xd01010 + p * 0x20
/-- Table 5.26. -/
def SLOT_SAMPLES (p : Nat) : Nat := 0xd01018 + p * 0x20
/-- Table 6.11. -/
def CUT_CTRL : Nat := 0xe00000
/-- Table 6.12. -/
def CUT_MISS_TIMEOUT : Nat := 0xe00004
/-- Table 6.13. -/
def CUT_QUEUE_OCC : Nat := 0xe00008
/-- Table 6.14. -/
def CUT_PIN_OCC : Nat := 0xe0000c
/-- Table 6.15. -/
def CUT_TABLE_INVALIDATE : Nat := 0xe00010
/-- Table 6.16. -/
def CUT_STATUS : Nat := 0xe00014
/-- Table 6.17. -/
def CUT_EVENTS : Nat := 0xe00040
/-- Table 6.18. -/
def CUT_EVENTS_REOCC : Nat := 0xe00044
/-- Table 6.19. -/
def CUT_TABLE_BASE (p : Nat) : Nat := 0xe00080 + p * 0x8
/-- Table 6.20. -/
def CUT_TABLE_SIZE (p : Nat) : Nat := 0xe00100 + p * 0x8
/-- Table 6.22. -/
def CUT_COUNT (p : Nat) : Nat := 0xe00200 + p * 0x8
/-- Table 6.24. -/
def CUT_LATENCY_HIST (p : Nat) : Nat := 0xe00300 + p * 0x8
/-- Table 6.25. -/
def CUT_SHED_ANSWERED (p : Nat) : Nat := 0xe01000 + p * 0x10
/-- Table 6.25. -/
def CUT_SHED_DROPPED (p : Nat) : Nat := 0xe01008 + p * 0x10
/-- Table 6.27. -/
def SAMPLE_CTRL (p : Nat) : Nat := 0xe02000 + p * 0x20
/-- Table 6.28. -/
def SAMPLE_ID (p : Nat) : Nat := 0xe02008 + p * 0x20
/-- Table 6.29. -/
def SAMPLE_RX_NS (p : Nat) : Nat := 0xe02010 + p * 0x20
/-- Table 6.29. -/
def SAMPLE_TX_NS (p : Nat) : Nat := 0xe02014 + p * 0x20
/-- Table 6.30. -/
def SAMPLE_FRAC (p : Nat) : Nat := 0xe02018 + p * 0x20
/-- Table 6.31. -/
def SAMPLE_LAT (p : Nat) : Nat := 0xe0201c + p * 0x20
/-- Table 13.18. -/
def JOB_STATUS : Nat := 0xf00000
/-- Table 13.19. -/
def JOB_PLAN_STORE : Nat := 0xf00008
/-- Table 13.20. -/
def JOB_MBX_RELEASE : Nat := 0xf00010
/-- Table 13.21. -/
def JOB_EVENTS : Nat := 0xf00040
/-- Table 13.22. -/
def JOB_EVENTS_REOCC : Nat := 0xf00044
/-- R412, R381 or Table 17.17. -/
def JOB_COUNT (p : Nat) : Nat := 0xf00100 + p * 0x8
/-- Table 13.25. -/
def JOB_PLAN_INFO (p : Nat) : Nat := 0xf01000 + p * 0x10
/-- Table 13.25. -/
def JOB_PLAN_VERSION (p : Nat) : Nat := 0xf01004 + p * 0x10
/-- Table 7.9. -/
def GRID_STATUS (p : Nat) : Nat := 0x2000000 + p * 0x1000000
/-- Table 7.10. -/
def GRID_PLAN_CYCLE (p : Nat) : Nat := 0x2000008 + p * 0x1000000
/-- Table 7.11. -/
def GRID_NE_CFG (p : Nat) : Nat := 0x2000010 + p * 0x1000000
/-- Table 7.12. -/
def GRID_AWAIT_LIMIT (p : Nat) : Nat := 0x2000014 + p * 0x1000000
/-- Table 7.13. -/
def GRID_EVENTS (p : Nat) : Nat := 0x2000040 + p * 0x1000000
/-- Table 7.14. -/
def GRID_EVENTS_REOCC (p : Nat) : Nat := 0x2000044 + p * 0x1000000
/-- Table 7.15. -/
def GRID_FAULT_SITE (p : Nat) : Nat := 0x2000050 + p * 0x1000000
/-- Table 7.16. -/
def GRID_FAULT_PC (p : Nat) : Nat := 0x2000054 + p * 0x1000000
/-- Table 7.17. -/
def GRID_FAULT_CYCLE (p : Nat) : Nat := 0x2000058 + p * 0x1000000
/-- Table 7.18. -/
def GRID_SRAM_ERR (p : Nat) : Nat := 0x2000060 + p * 0x1000000
/-- Table 7.19. -/
def GRID_FAILED_SITE (p : Nat) : Nat := 0x2000068 + p * 0x1000000
/-- Table 7.21. -/
def GRID_COUNT (p : Nat) (q : Nat) : Nat := 0x2000100 + p * 0x1000000 + q * 0x8
/-- Table 11.10. -/
def QNT_STATUS : Nat := 0x2f00000
/-- Table 11.11. -/
def QNT_EVENTS : Nat := 0x2f00040
/-- Table 11.12. -/
def QNT_EVENTS_REOCC : Nat := 0x2f00044
/-- Table 11.13. -/
def QNT_ALARM_REC : Nat := 0x2f00050
/-- Table 11.15. -/
def QNT_COUNT (p : Nat) : Nat := 0x2f00100 + p * 0x8
/-- Table 11.16. -/
def SEQ_CFG (p : Nat) : Nat := 0x2f01000 + p * 0x40
/-- Table 11.17. -/
def SEQ_DIR (p : Nat) : Nat := 0x2f01008 + p * 0x40
/-- Table 11.17. -/
def SEQ_CENSUS (p : Nat) : Nat := 0x2f01010 + p * 0x40
/-- Table 11.18. -/
def SEQ_UP (p : Nat) : Nat := 0x2f01018 + p * 0x40
/-- Table 11.18. -/
def SEQ_DOWN (p : Nat) : Nat := 0x2f0101c + p * 0x40
/-- Table 11.19. -/
def SEQ_STEP (p : Nat) : Nat := 0x2f01020 + p * 0x40
/-- Table 11.20. -/
def SEQ_VERDICT (p : Nat) : Nat := 0x2f01028 + p * 0x40
/-- Table 11.21. -/
def SEQ_CTRL (p : Nat) : Nat := 0x2f0102c + p * 0x40
/-- Table 12.15. -/
def RIG_CTRL : Nat := 0x6000000
/-- Table 12.16. -/
def RIG_RACK : Nat := 0x6000004
/-- Table 12.17. -/
def RIG_REMOTE_CTRL_MASK : Nat := 0x6000008
/-- Table 12.18. -/
def RIG_TIMEOUT : Nat := 0x600000c
/-- Table 12.18. -/
def RIG_REDUCE_TIMEOUT : Nat := 0x6000010
/-- Table 12.19. -/
def RIG_GAPS : Nat := 0x6000014
/-- Table 12.20. -/
def RIG_OUTSTANDING : Nat := 0x6000018
/-- Table 12.21. -/
def RIG_EVENTS : Nat := 0x6000040
/-- Table 12.22. -/
def RIG_EVENTS_REOCC : Nat := 0x6000044
/-- Table 12.23. -/
def RIG_ERR_REC : Nat := 0x6000050
/-- Table 12.25. -/
def RIG_COUNT (p : Nat) : Nat := 0x6000100 + p * 0x8
/-- Table 12.26. -/
def RIGP_CFG (p : Nat) : Nat := 0x6001000 + p * 0x100
/-- Table 12.27. -/
def RIGP_STATUS (p : Nat) : Nat := 0x6001004 + p * 0x100
/-- Table 12.28. -/
def RIGP_EVENTS (p : Nat) : Nat := 0x6001008 + p * 0x100
/-- Table 12.29. -/
def RIGP_EVENTS_REOCC (p : Nat) : Nat := 0x600100c + p * 0x100
/-- Table 12.31. -/
def RIGP_COUNT (p : Nat) (q : Nat) : Nat := 0x6001080 + p * 0x100 + q * 0x8
/-- Table 12.32. -/
def RIG_ROUTE (p : Nat) : Nat := 0x6010000 + p * 0x8
/-- Table 12.33. -/
def RED_STAGE (p : Nat) : Nat := 0x6020000 + p * 0x100
/-- Table 12.34. -/
def RED_STAGE_SIZE (p : Nat) : Nat := 0x6020008 + p * 0x100
/-- Table 12.35. -/
def RED_OCC (p : Nat) : Nat := 0x602000c + p * 0x100
/-- Table 14.5. -/
def REC_CFG : Nat := 0x7000000
/-- Table 14.6. -/
def REC_BUDDY : Nat := 0x7000004
/-- Table 14.7. -/
def REC_ALIAS : Nat := 0x7000008
/-- Table 14.8. -/
def REC_EPOCH : Nat := 0x7000010
/-- Table 14.8. -/
def REC_SERVE_EPOCH : Nat := 0x7000018
/-- Table 14.9. -/
def REC_MIRROR : Nat := 0x7000020
/-- Table 14.9. -/
def REC_SNAP : Nat := 0x7000028
/-- Table 14.9. -/
def REC_LOG : Nat := 0x7000030
/-- Table 14.10. -/
def REC_LOG_STATE : Nat := 0x7000038
/-- Table 14.11. -/
def REC_EVENTS : Nat := 0x7000040
/-- Table 14.12. -/
def REC_EVENTS_REOCC : Nat := 0x7000044
/-- Table 14.13. -/
def REC_TABLE_HOLD : Nat := 0x7000048
/-- Table 14.14. -/
def REC_HEARTBEAT : Nat := 0x700004c
/-- Table 14.15. -/
def REC_NEST_STATUS : Nat := 0x7000050
/-- Table 14.16. -/
def REC_NEST_CTRL : Nat := 0x7000054
/-- Table 14.17. -/
def REC_EPOCH_TIMES : Nat := 0x7000058
/-- Table 14.18. -/
def REC_REPLICA (p : Nat) : Nat := 0x7000060 + p * 0x8
/-- R412, R381 or Table 17.17. -/
def REC_COUNT (p : Nat) : Nat := 0x7000100 + p * 0x8
/-- Table 14.19. -/
def REC_FENCE (p : Nat) : Nat := 0x7000200 + p * 0x8
/-- Table 14.20. -/
def REC_RANGE_BASE (p : Nat) : Nat := 0x7000400 + p * 0x10
/-- Table 14.20. -/
def REC_RANGE_LEN (p : Nat) : Nat := 0x7000408 + p * 0x10
/-- Table 12.32. -/
def REC_SERVE_ROUTE (p : Nat) (q : Nat) : Nat := 0x7010000 + p * 0x10000 + q * 0x8
/-- Table 8.6. -/
def MEM_HOLD_CTRL (p : Nat) : Nat := 0x8000000 + p * 0x400000
/-- Table 8.7. -/
def MEM_SCRUB_CTRL (p : Nat) : Nat := 0x8000004 + p * 0x400000
/-- Table 8.8. -/
def MEM_RES_RELEASE (p : Nat) : Nat := 0x8000008 + p * 0x400000
/-- Table 8.9. -/
def MEM_RES_STATUS (p : Nat) : Nat := 0x800000c + p * 0x400000
/-- Table 8.10. -/
def MEM_EVENTS (p : Nat) : Nat := 0x8000040 + p * 0x400000
/-- Table 8.11. -/
def MEM_EVENTS_REOCC (p : Nat) : Nat := 0x8000044 + p * 0x400000
/-- Table 8.12. -/
def MEM_LATE_WRITE_REC (p : Nat) : Nat := 0x8000050 + p * 0x400000
/-- Table 8.13. -/
def MEM_ERR_ADDR (p : Nat) : Nat := 0x8000058 + p * 0x400000
/-- Table 8.15. -/
def MEM_COUNT (p : Nat) (q : Nat) : Nat := 0x8000100 + p * 0x400000 + q * 0x8
/-- Table 8.16. -/
def MEM_HBM_STATUS (p : Nat) (q : Nat) : Nat := 0x8001000 + p * 0x400000 + q * 0x100

end R

namespace F

def IDENT_VENDOR : Fld := ⟨R.IDENT, 48, 16⟩
def IDENT_DEVICE : Fld := ⟨R.IDENT, 32, 16⟩
def IDENT_STEPPING : Fld := ⟨R.IDENT, 24, 8⟩
def SERIAL_SERIAL : Fld := ⟨R.SERIAL, 0, 64⟩
def MODULE_NUMBER_MODNUM : Fld := ⟨R.MODULE_NUMBER, 0, 12⟩
def FUSE_STATUS_FUSES_VALID : Fld := ⟨R.FUSE_STATUS, 1, 1⟩
def FUSE_STATUS_LINK_ENC : Fld := ⟨R.FUSE_STATUS, 0, 1⟩
def MODULE_STATE_STATE : Fld := ⟨R.MODULE_STATE, 0, 4⟩
def DECODE_ERR_DENIED_CTRL : Fld := ⟨R.DECODE_ERR, 3, 1⟩
def DECODE_ERR_DENIED_STRAND : Fld := ⟨R.DECODE_ERR, 2, 1⟩
def DECODE_ERR_DENIED_WINDOW : Fld := ⟨R.DECODE_ERR, 1, 1⟩
def DECODE_ERR_UNMAPPED : Fld := ⟨R.DECODE_ERR, 0, 1⟩
def DECODE_ERR_ADDR_SOURCE : Fld := ⟨R.DECODE_ERR_ADDR, 60, 4⟩
def DECODE_ERR_ADDR_ADDRESS : Fld := ⟨R.DECODE_ERR_ADDR, 0, 56⟩
def DECODE_ERR_COUNT_COUNT : Fld := ⟨R.DECODE_ERR_COUNT, 0, 32⟩
def GL_SUMMARY_ETH_PORT : Fld := ⟨R.GL_SUMMARY, 32, 16⟩
def GL_SUMMARY_RING : Fld := ⟨R.GL_SUMMARY, 20, 1⟩
def GL_SUMMARY_BLOCKS : Fld := ⟨R.GL_SUMMARY, 0, 20⟩
def GL_SUMMARY_ENABLE_ETH_PORT : Fld := ⟨R.GL_SUMMARY_ENABLE, 32, 16⟩
def GL_SUMMARY_ENABLE_RING : Fld := ⟨R.GL_SUMMARY_ENABLE, 20, 1⟩
def GL_SUMMARY_ENABLE_BLOCKS : Fld := ⟨R.GL_SUMMARY_ENABLE, 0, 20⟩
def GL_ALERT_MASK_ETH_PORT : Fld := ⟨R.GL_ALERT_MASK, 32, 16⟩
def GL_ALERT_MASK_RING : Fld := ⟨R.GL_ALERT_MASK, 20, 1⟩
def GL_ALERT_MASK_BLOCKS : Fld := ⟨R.GL_ALERT_MASK, 0, 20⟩
def GL_RING_PENDING_PENDING (p : Nat) : Fld := ⟨(R.GL_RING_PENDING p), 0, 64⟩
def BOOT_STATUS_STEP : Fld := ⟨R.BOOT_STATUS, 4, 4⟩
def BOOT_STATUS_FAIL : Fld := ⟨R.BOOT_STATUS, 0, 4⟩
def BOOT_RESET_CAUSE_CAUSE : Fld := ⟨R.BOOT_RESET_CAUSE, 0, 3⟩
def BOOT_IMG_SEQ_SEQ_B : Fld := ⟨R.BOOT_IMG_SEQ, 32, 32⟩
def BOOT_IMG_SEQ_SEQ_A : Fld := ⟨R.BOOT_IMG_SEQ, 0, 32⟩
def BOOT_TIMES_LINKING_MS : Fld := ⟨R.BOOT_TIMES, 32, 16⟩
def BOOT_TIMES_INIT_MS : Fld := ⟨R.BOOT_TIMES, 16, 16⟩
def BOOT_TIMES_BOOTING_MS : Fld := ⟨R.BOOT_TIMES, 0, 16⟩
def BOOT_REFUSE_REC_COPY : Fld := ⟨R.BOOT_REFUSE_REC, 63, 1⟩
def BOOT_REFUSE_REC_RECORD : Fld := ⟨R.BOOT_REFUSE_REC, 32, 10⟩
def BOOT_REFUSE_REC_ENTRY : Fld := ⟨R.BOOT_REFUSE_REC, 0, 32⟩
def BOOT_START_CFG_LINK_WAIT_S : Fld := ⟨R.BOOT_START_CFG, 24, 8⟩
def BOOT_START_CFG_MIN_RIG_PORTS : Fld := ⟨R.BOOT_START_CFG, 16, 6⟩
def BOOT_START_CFG_HOST_RESTART : Fld := ⟨R.BOOT_START_CFG, 0, 1⟩
def BOOT_WDT_CFG_WDT_MS : Fld := ⟨R.BOOT_WDT_CFG, 0, 16⟩
def BOOT_WDT_KICK_KEY : Fld := ⟨R.BOOT_WDT_KICK, 0, 32⟩
def BOOT_RESTART_KEY : Fld := ⟨R.BOOT_RESTART, 0, 32⟩
def BOOT_EVENTS_PRE_READY_DROP : Fld := ⟨R.BOOT_EVENTS, 3, 1⟩
def BOOT_EVENTS_LINK_WAIT_EXPIRED : Fld := ⟨R.BOOT_EVENTS, 2, 1⟩
def BOOT_EVENTS_WATCHDOG_START : Fld := ⟨R.BOOT_EVENTS, 1, 1⟩
def BOOT_EVENTS_REFUSED : Fld := ⟨R.BOOT_EVENTS, 0, 1⟩
def BOOT_EVENTS_REOCC_COUNT : Fld := ⟨R.BOOT_EVENTS_REOCC, 0, 32⟩
def BOOT_PRE_READY_DROPS_COUNT : Fld := ⟨R.BOOT_PRE_READY_DROPS, 0, 48⟩
def SEC_STATUS_RNG_OK : Fld := ⟨R.SEC_STATUS, 4, 1⟩
def SEC_STATUS_IMAGE_COPY : Fld := ⟨R.SEC_STATUS, 3, 1⟩
def SEC_STATUS_IMAGE_VERIFIED : Fld := ⟨R.SEC_STATUS, 2, 1⟩
def SEC_STATUS_KEY_PRESENT : Fld := ⟨R.SEC_STATUS, 1, 1⟩
def SEC_STATUS_ROOT_VALID : Fld := ⟨R.SEC_STATUS, 0, 1⟩
def SEC_IMG_RESULT_COPY_B : Fld := ⟨R.SEC_IMG_RESULT, 8, 8⟩
def SEC_IMG_RESULT_COPY_A : Fld := ⟨R.SEC_IMG_RESULT, 0, 8⟩
def SEC_SVN_IMAGE_SVN : Fld := ⟨R.SEC_SVN, 16, 7⟩
def SEC_SVN_FUSED_SVN : Fld := ⟨R.SEC_SVN, 0, 7⟩
def SEC_SVN_ADVANCE_KEY : Fld := ⟨R.SEC_SVN_ADVANCE, 0, 32⟩
def SEC_CERT_LEN_BYTES : Fld := ⟨R.SEC_CERT_LEN, 0, 15⟩
def SEC_EVENTS_FCACHE_UNCORR : Fld := ⟨R.SEC_EVENTS, 7, 1⟩
def SEC_EVENTS_LEDGER_UNCORR : Fld := ⟨R.SEC_EVENTS, 6, 1⟩
def SEC_EVENTS_MGMT_UNCORR : Fld := ⟨R.SEC_EVENTS, 5, 1⟩
def SEC_EVENTS_RNG_FAIL : Fld := ⟨R.SEC_EVENTS, 4, 1⟩
def SEC_EVENTS_PCIE_INTEGRITY : Fld := ⟨R.SEC_EVENTS, 3, 1⟩
def SEC_EVENTS_ATTEST_FAILED : Fld := ⟨R.SEC_EVENTS, 2, 1⟩
def SEC_EVENTS_IMG_FALLBACK : Fld := ⟨R.SEC_EVENTS, 1, 1⟩
def SEC_EVENTS_PATH_UNCORR : Fld := ⟨R.SEC_EVENTS, 0, 1⟩
def SEC_EVENTS_REOCC_COUNT : Fld := ⟨R.SEC_EVENTS_REOCC, 0, 32⟩
def SEC_ATTEST_ERR_REC_REASON : Fld := ⟨R.SEC_ATTEST_ERR_REC, 28, 4⟩
def SEC_ATTEST_ERR_REC_PORT : Fld := ⟨R.SEC_ATTEST_ERR_REC, 16, 5⟩
def SEC_ATTEST_ERR_REC_CLAIMED : Fld := ⟨R.SEC_ATTEST_ERR_REC, 0, 12⟩
def SEC_COUNT_COUNT (p : Nat) : Fld := ⟨(R.SEC_COUNT p), 0, 48⟩
def SEC_ROOT_HASH_HASH (p : Nat) : Fld := ⟨(R.SEC_ROOT_HASH p), 0, 64⟩
def SEC_OPKEY_WORD (p : Nat) (q : Nat) : Fld := ⟨(R.SEC_OPKEY p q), 0, 64⟩
def CLK_STATUS_GLIDING : Fld := ⟨R.CLK_STATUS, 28, 1⟩
def CLK_STATUS_REEF_PENDING : Fld := ⟨R.CLK_STATUS, 27, 1⟩
def CLK_STATUS_N : Fld := ⟨R.CLK_STATUS, 20, 7⟩
def CLK_STATUS_ROOT_MHZ : Fld := ⟨R.CLK_STATUS, 0, 13⟩
def CLK_N_CAP_N_CAP : Fld := ⟨R.CLK_N_CAP, 0, 7⟩
def CLK_RATES_OFFLOAD_BOUND_PS : Fld := ⟨R.CLK_RATES, 24, 24⟩
def CLK_RATES_SERVE_BOUND_PS : Fld := ⟨R.CLK_RATES, 0, 24⟩
def AGE_CFG_PLAN_PERIOD_MS : Fld := ⟨R.AGE_CFG, 24, 8⟩
def AGE_CFG_START_GUARD : Fld := ⟨R.AGE_CFG, 16, 8⟩
def AGE_CFG_MARGIN_TARGET : Fld := ⟨R.AGE_CFG, 0, 8⟩
def AGE_LOG_IDX_COUNT : Fld := ⟨R.AGE_LOG_IDX, 0, 32⟩
def AGE_EVENTS_RETIRE : Fld := ⟨R.AGE_EVENTS, 3, 1⟩
def AGE_EVENTS_REEF_DONE : Fld := ⟨R.AGE_EVENTS, 2, 1⟩
def AGE_EVENTS_HEADROOM_OUT : Fld := ⟨R.AGE_EVENTS, 1, 1⟩
def AGE_EVENTS_VSTEP : Fld := ⟨R.AGE_EVENTS, 0, 1⟩
def AGE_EVENTS_REOCC_COUNT : Fld := ⟨R.AGE_EVENTS_REOCC, 0, 32⟩
def AGE_RAIL_V_MAX_MV (p : Nat) : Fld := ⟨(R.AGE_RAIL p), 32, 16⟩
def AGE_RAIL_V_START_MV (p : Nat) : Fld := ⟨(R.AGE_RAIL p), 16, 16⟩
def AGE_RAIL_V_MV (p : Nat) : Fld := ⟨(R.AGE_RAIL p), 0, 16⟩
def PWR_CFG_PWR_LIMIT_W : Fld := ⟨R.PWR_CFG, 16, 16⟩
def PWR_CFG_I_LIMIT_A : Fld := ⟨R.PWR_CFG, 8, 8⟩
def PWR_CFG_T_WARN_C : Fld := ⟨R.PWR_CFG, 0, 8⟩
def PWR_STATUS_P_IN_W : Fld := ⟨R.PWR_STATUS, 48, 16⟩
def PWR_STATUS_I_IN_DA : Fld := ⟨R.PWR_STATUS, 32, 16⟩
def PWR_STATUS_V_IN_CV : Fld := ⟨R.PWR_STATUS, 16, 16⟩
def PWR_STATUS_THROTTLE : Fld := ⟨R.PWR_STATUS, 0, 4⟩
def PWR_THERM_STATUS_T_REG_C : Fld := ⟨R.PWR_THERM_STATUS, 24, 8⟩
def PWR_THERM_STATUS_T_HBM_C : Fld := ⟨R.PWR_THERM_STATUS, 16, 8⟩
def PWR_THERM_STATUS_T_BLOCK_C : Fld := ⟨R.PWR_THERM_STATUS, 8, 8⟩
def PWR_THERM_STATUS_HOT_BLOCK : Fld := ⟨R.PWR_THERM_STATUS, 0, 8⟩
def PWR_EVENTS_HBM_HOT : Fld := ⟨R.PWR_EVENTS, 3, 1⟩
def PWR_EVENTS_THERM_WARN : Fld := ⟨R.PWR_EVENTS, 2, 1⟩
def PWR_EVENTS_CURRENT_LIMIT : Fld := ⟨R.PWR_EVENTS, 1, 1⟩
def PWR_EVENTS_POWER_LIMIT : Fld := ⟨R.PWR_EVENTS, 0, 1⟩
def PWR_EVENTS_REOCC_COUNT : Fld := ⟨R.PWR_EVENTS_REOCC, 0, 32⟩
def PWR_COUNT_COUNT (p : Nat) : Fld := ⟨(R.PWR_COUNT p), 0, 48⟩
def AGE_MON_RO_COUNT (p : Nat) : Fld := ⟨(R.AGE_MON p), 44, 20⟩
def AGE_MON_TEMP (p : Nat) : Fld := ⟨(R.AGE_MON p), 24, 8⟩
def AGE_MON_SLACK_S (p : Nat) : Fld := ⟨(R.AGE_MON p), 8, 8⟩
def AGE_MON_SLACK_L (p : Nat) : Fld := ⟨(R.AGE_MON p), 0, 8⟩
def AGE_LOG_KIND (p : Nat) : Fld := ⟨(R.AGE_LOG p), 56, 8⟩
def AGE_LOG_N (p : Nat) : Fld := ⟨(R.AGE_LOG p), 48, 8⟩
def AGE_LOG_RAIL (p : Nat) : Fld := ⟨(R.AGE_LOG p), 45, 3⟩
def AGE_LOG_V_MV (p : Nat) : Fld := ⟨(R.AGE_LOG p), 32, 13⟩
def AGE_LOG_TIME_MS (p : Nat) : Fld := ⟨(R.AGE_LOG p), 0, 32⟩
def ETH_PORT_CTRL_DEFAULT_PRI (p : Nat) : Fld := ⟨(R.ETH_PORT_CTRL p), 9, 3⟩
def ETH_PORT_CTRL_TRAIN_EN (p : Nat) : Fld := ⟨(R.ETH_PORT_CTRL p), 8, 1⟩
def ETH_PORT_CTRL_FC_MODE (p : Nat) : Fld := ⟨(R.ETH_PORT_CTRL p), 6, 2⟩
def ETH_PORT_CTRL_BCAST_ACCEPT (p : Nat) : Fld := ⟨(R.ETH_PORT_CTRL p), 5, 1⟩
def ETH_PORT_CTRL_PROMISC (p : Nat) : Fld := ⟨(R.ETH_PORT_CTRL p), 4, 1⟩
def ETH_PORT_CTRL_SPEED (p : Nat) : Fld := ⟨(R.ETH_PORT_CTRL p), 2, 2⟩
def ETH_PORT_CTRL_ENABLE (p : Nat) : Fld := ⟨(R.ETH_PORT_CTRL p), 0, 1⟩
def ETH_PORT_STATUS_REMOTE_FAULT (p : Nat) : Fld := ⟨(R.ETH_PORT_STATUS p), 3, 1⟩
def ETH_PORT_STATUS_LOCAL_FAULT (p : Nat) : Fld := ⟨(R.ETH_PORT_STATUS p), 2, 1⟩
def ETH_PORT_STATUS_ALIGNED (p : Nat) : Fld := ⟨(R.ETH_PORT_STATUS p), 1, 1⟩
def ETH_PORT_STATUS_LINK_UP (p : Nat) : Fld := ⟨(R.ETH_PORT_STATUS p), 0, 1⟩
def ETH_MAX_FRAME_MAX_FRAME (p : Nat) : Fld := ⟨(R.ETH_MAX_FRAME p), 0, 15⟩
def ETH_FC_THRESH_XON_KIB (p : Nat) : Fld := ⟨(R.ETH_FC_THRESH p), 16, 9⟩
def ETH_FC_THRESH_XOFF_KIB (p : Nat) : Fld := ⟨(R.ETH_FC_THRESH p), 0, 9⟩
def ETH_FC_TX_TX_PAUSE_TIME (p : Nat) : Fld := ⟨(R.ETH_FC_TX p), 16, 16⟩
def ETH_FC_TX_PFC_TX_MASK (p : Nat) : Fld := ⟨(R.ETH_FC_TX p), 0, 8⟩
def ETH_FC_STATE_LINK_PAUSED (p : Nat) : Fld := ⟨(R.ETH_FC_STATE p), 8, 1⟩
def ETH_FC_STATE_PRI_PAUSED (p : Nat) : Fld := ⟨(R.ETH_FC_STATE p), 0, 8⟩
def ETH_PREEMPT_CTRL_VERIFY_TIME_MS (p : Nat) : Fld := ⟨(R.ETH_PREEMPT_CTRL p), 16, 8⟩
def ETH_PREEMPT_CTRL_EXPRESS_MASK (p : Nat) : Fld := ⟨(R.ETH_PREEMPT_CTRL p), 8, 8⟩
def ETH_PREEMPT_CTRL_ADD_FRAG_SIZE (p : Nat) : Fld := ⟨(R.ETH_PREEMPT_CTRL p), 2, 2⟩
def ETH_PREEMPT_CTRL_VERIFY_DIS (p : Nat) : Fld := ⟨(R.ETH_PREEMPT_CTRL p), 1, 1⟩
def ETH_PREEMPT_CTRL_PREEMPT_EN (p : Nat) : Fld := ⟨(R.ETH_PREEMPT_CTRL p), 0, 1⟩
def ETH_PREEMPT_STATUS_ACTIVE (p : Nat) : Fld := ⟨(R.ETH_PREEMPT_STATUS p), 3, 1⟩
def ETH_PREEMPT_STATUS_VERIFY_STATUS (p : Nat) : Fld := ⟨(R.ETH_PREEMPT_STATUS p), 0, 3⟩
def ETH_ETYPE_ACCEPT_VALID (p : Nat) (q : Nat) : Fld := ⟨(R.ETH_ETYPE_ACCEPT p q), 16, 1⟩
def ETH_ETYPE_ACCEPT_ETYPE (p : Nat) (q : Nat) : Fld := ⟨(R.ETH_ETYPE_ACCEPT p q), 0, 16⟩
def ETH_TS_CORR_TX_CORR_PS (p : Nat) : Fld := ⟨(R.ETH_TS_CORR p), 16, 16⟩
def ETH_TS_CORR_RX_CORR_PS (p : Nat) : Fld := ⟨(R.ETH_TS_CORR p), 0, 16⟩
def ETH_UCAST_VALID (p : Nat) (q : Nat) : Fld := ⟨(R.ETH_UCAST p q), 63, 1⟩
def ETH_UCAST_ADDRESS (p : Nat) (q : Nat) : Fld := ⟨(R.ETH_UCAST p q), 0, 48⟩
def ETH_GHASH_BINS (p : Nat) (q : Nat) : Fld := ⟨(R.ETH_GHASH p q), 0, 32⟩
def ETH_PORT_EVENTS_VERIFY_FAILED (p : Nat) : Fld := ⟨(R.ETH_PORT_EVENTS p), 4, 1⟩
def ETH_PORT_EVENTS_REMOTE_FAULT_SEEN (p : Nat) : Fld := ⟨(R.ETH_PORT_EVENTS p), 3, 1⟩
def ETH_PORT_EVENTS_LOCAL_FAULT_SEEN (p : Nat) : Fld := ⟨(R.ETH_PORT_EVENTS p), 2, 1⟩
def ETH_PORT_EVENTS_ALIGN_LOST (p : Nat) : Fld := ⟨(R.ETH_PORT_EVENTS p), 1, 1⟩
def ETH_PORT_EVENTS_LINK_DOWN (p : Nat) : Fld := ⟨(R.ETH_PORT_EVENTS p), 0, 1⟩
def ETH_PORT_EVENTS_REOCC_COUNT (p : Nat) : Fld := ⟨(R.ETH_PORT_EVENTS_REOCC p), 0, 32⟩
def ETH_CNT_CTRL_NATIVE_CLEAR (p : Nat) : Fld := ⟨(R.ETH_CNT_CTRL p), 0, 1⟩
def ETH_PTP_NS_NS : Fld := ⟨R.ETH_PTP_NS, 0, 30⟩
def ETH_PTP_FRAC_FRAC : Fld := ⟨R.ETH_PTP_FRAC, 0, 16⟩
def ETH_PTP_SEC_SEC : Fld := ⟨R.ETH_PTP_SEC, 0, 48⟩
def ETH_PTP_RATE_RATE : Fld := ⟨R.ETH_PTP_RATE, 0, 32⟩
def ETH_PTP_STEP_STEP : Fld := ⟨R.ETH_PTP_STEP, 0, 32⟩
def ETH_COUNTER_COUNT (p : Nat) (q : Nat) : Fld := ⟨(R.ETH_COUNTER p q), 0, 40⟩
def ETH_HALF_STATUS_HALF (p : Nat) : Fld := ⟨(R.ETH_HALF_STATUS p), 0, 52⟩
def ETH_HALF_ENABLE_ENABLE (p : Nat) : Fld := ⟨(R.ETH_HALF_ENABLE p), 0, 52⟩
def ETH_HALF_REOCC_COUNT (p : Nat) : Fld := ⟨(R.ETH_HALF_REOCC p), 0, 32⟩
def ETH_COMPAT_COUNT (p : Nat) (q : Nat) : Fld := ⟨(R.ETH_COMPAT p q), 0, 32⟩
def RING_BASE_TARGET (p : Nat) : Fld := ⟨(R.RING_BASE p), 63, 1⟩
def RING_BASE_ADDRESS (p : Nat) : Fld := ⟨(R.RING_BASE p), 0, 56⟩
def RING_CFG_CLASS (p : Nat) : Fld := ⟨(R.RING_CFG p), 28, 4⟩
def RING_CFG_PORT (p : Nat) : Fld := ⟨(R.RING_CFG p), 24, 4⟩
def RING_CFG_LOG2_ENTRIES (p : Nat) : Fld := ⟨(R.RING_CFG p), 8, 5⟩
def RING_CFG_BUF_SIZE (p : Nat) : Fld := ⟨(R.RING_CFG p), 2, 3⟩
def RING_CFG_ENABLE (p : Nat) : Fld := ⟨(R.RING_CFG p), 0, 1⟩
def RING_MASK_MODEL_MASK (p : Nat) : Fld := ⟨(R.RING_MASK p), 16, 16⟩
def RING_MASK_PRI_MASK (p : Nat) : Fld := ⟨(R.RING_MASK p), 0, 8⟩
def RING_DEV_IDX_DEV_IDX (p : Nat) : Fld := ⟨(R.RING_DEV_IDX p), 0, 32⟩
def RING_SW_IDX_SW_IDX (p : Nat) : Fld := ⟨(R.RING_SW_IDX p), 0, 32⟩
def RING_DONE_COUNT_COUNT (p : Nat) : Fld := ⟨(R.RING_DONE_COUNT p), 0, 48⟩
def RING_NOBUF_DROPS_COUNT (p : Nat) : Fld := ⟨(R.RING_NOBUF_DROPS p), 0, 32⟩
def RING_STATUS_IDX_ERR (p : Nat) : Fld := ⟨(R.RING_STATUS p), 4, 1⟩
def RING_STATUS_FETCH_ERR (p : Nat) : Fld := ⟨(R.RING_STATUS p), 3, 1⟩
def RING_STATUS_DESC_ERR (p : Nat) : Fld := ⟨(R.RING_STATUS p), 2, 1⟩
def RING_STATUS_NOBUF (p : Nat) : Fld := ⟨(R.RING_STATUS p), 1, 1⟩
def RING_STATUS_COMPLETION (p : Nat) : Fld := ⟨(R.RING_STATUS p), 0, 1⟩
def RING_STATUS_REOCC_COUNT (p : Nat) : Fld := ⟨(R.RING_STATUS_REOCC p), 0, 32⟩
def RING_IRQ_CTRL_IRQ_TIMER (p : Nat) : Fld := ⟨(R.RING_IRQ_CTRL p), 16, 16⟩
def RING_IRQ_CTRL_IRQ_COUNT (p : Nat) : Fld := ⟨(R.RING_IRQ_CTRL p), 1, 15⟩
def RING_IRQ_CTRL_IRQ_EN (p : Nat) : Fld := ⟨(R.RING_IRQ_CTRL p), 0, 1⟩
def RING_ERR_COUNT_COUNT (p : Nat) : Fld := ⟨(R.RING_ERR_COUNT p), 0, 32⟩
def RING_IDX_MIRROR_TARGET (p : Nat) : Fld := ⟨(R.RING_IDX_MIRROR p), 63, 1⟩
def RING_IDX_MIRROR_MIRROR_EN (p : Nat) : Fld := ⟨(R.RING_IDX_MIRROR p), 62, 1⟩
def RING_IDX_MIRROR_ADDRESS (p : Nat) : Fld := ⟨(R.RING_IDX_MIRROR p), 0, 56⟩
def HLY_CTRL_ETYPE_EN : Fld := ⟨R.HLY_CTRL, 2, 1⟩
def HLY_CTRL_V6_EN : Fld := ⟨R.HLY_CTRL, 1, 1⟩
def HLY_CTRL_V4_EN : Fld := ⟨R.HLY_CTRL, 0, 1⟩
def HLY_ETYPE_ETYPE : Fld := ⟨R.HLY_ETYPE, 0, 16⟩
def HLY_UDP_UDP_PORT : Fld := ⟨R.HLY_UDP, 0, 16⟩
def HLY_TX_HLY_TTL : Fld := ⟨R.HLY_TX, 0, 8⟩
def HLY_ECHO_WINDOW_TICKS : Fld := ⟨R.HLY_ECHO_WINDOW, 0, 24⟩
def HLY_UPD_TIMEOUT_TICKS : Fld := ⟨R.HLY_UPD_TIMEOUT, 0, 24⟩
def HLY_LEDGER_OCC_ECHO : Fld := ⟨R.HLY_LEDGER_OCC, 32, 19⟩
def HLY_LEDGER_OCC_OPEN : Fld := ⟨R.HLY_LEDGER_OCC, 0, 19⟩
def HLY_BOOT_NONCE_NONCE : Fld := ⟨R.HLY_BOOT_NONCE, 0, 64⟩
def HLY_EVENTS_CTRL_BUSY : Fld := ⟨R.HLY_EVENTS, 8, 1⟩
def HLY_EVENTS_CTRL_REPLAY : Fld := ⟨R.HLY_EVENTS, 7, 1⟩
def HLY_EVENTS_CTRL_AUTH_FAIL : Fld := ⟨R.HLY_EVENTS, 6, 1⟩
def HLY_EVENTS_UPD_TIMEOUT : Fld := ⟨R.HLY_EVENTS, 5, 1⟩
def HLY_EVENTS_LEDGER_FULL : Fld := ⟨R.HLY_EVENTS, 4, 1⟩
def HLY_EVENTS_ID_CONFLICT : Fld := ⟨R.HLY_EVENTS, 3, 1⟩
def HLY_EVENTS_DUP_OPEN : Fld := ⟨R.HLY_EVENTS, 2, 1⟩
def HLY_EVENTS_NO_MODEL : Fld := ⟨R.HLY_EVENTS, 1, 1⟩
def HLY_EVENTS_MALFORMED : Fld := ⟨R.HLY_EVENTS, 0, 1⟩
def HLY_EVENTS_REOCC_COUNT : Fld := ⟨R.HLY_EVENTS_REOCC, 0, 32⟩
def HLY_CTRL_LAST_ID_LAST_ID (p : Nat) : Fld := ⟨(R.HLY_CTRL_LAST_ID p), 0, 64⟩
def HLY_COUNT_COUNT (p : Nat) : Fld := ⟨(R.HLY_COUNT p), 0, 48⟩
def TPL_CFG_VALID (p : Nat) : Fld := ⟨(R.TPL_CFG p), 31, 1⟩
def TPL_CFG_LAST_NEEDED (p : Nat) : Fld := ⟨(R.TPL_CFG p), 0, 15⟩
def TPL_KEY_VALID (p : Nat) (q : Nat) : Fld := ⟨(R.TPL_KEY p q), 63, 1⟩
def TPL_KEY_TABLE (p : Nat) (q : Nat) : Fld := ⟨(R.TPL_KEY p q), 48, 4⟩
def TPL_KEY_COUNT_M1 (p : Nat) (q : Nat) : Fld := ⟨(R.TPL_KEY p q), 40, 5⟩
def TPL_KEY_FEAT_BASE (p : Nat) (q : Nat) : Fld := ⟨(R.TPL_KEY p q), 32, 8⟩
def TPL_KEY_OFFSET (p : Nat) (q : Nat) : Fld := ⟨(R.TPL_KEY p q), 0, 14⟩
def TPL_FIELD_VALID (p : Nat) (q : Nat) : Fld := ⟨(R.TPL_FIELD p q), 63, 1⟩
def TPL_FIELD_FEATURE (p : Nat) (q : Nat) : Fld := ⟨(R.TPL_FIELD p q), 32, 8⟩
def TPL_FIELD_TYPE (p : Nat) (q : Nat) : Fld := ⟨(R.TPL_FIELD p q), 28, 4⟩
def TPL_FIELD_OFFSET (p : Nat) (q : Nat) : Fld := ⟨(R.TPL_FIELD p q), 0, 14⟩
def TEU_QUEUE_OCC_OCC : Fld := ⟨R.TEU_QUEUE_OCC, 0, 11⟩
def TEU_STAGE_BLOCKS_BLOCKS_3 (p : Nat) : Fld := ⟨(R.TEU_STAGE_BLOCKS p), 24, 7⟩
def TEU_STAGE_BLOCKS_BLOCKS_2 (p : Nat) : Fld := ⟨(R.TEU_STAGE_BLOCKS p), 16, 7⟩
def TEU_STAGE_BLOCKS_BLOCKS_1 (p : Nat) : Fld := ⟨(R.TEU_STAGE_BLOCKS p), 8, 7⟩
def TEU_STAGE_BLOCKS_BLOCKS_0 (p : Nat) : Fld := ⟨(R.TEU_STAGE_BLOCKS p), 0, 7⟩
def TEU_EVENTS_NODE_UNCORR : Fld := ⟨R.TEU_EVENTS, 6, 1⟩
def TEU_EVENTS_NODE_CORR : Fld := ⟨R.TEU_EVENTS, 5, 1⟩
def TEU_EVENTS_POISONED : Fld := ⟨R.TEU_EVENTS, 4, 1⟩
def TEU_EVENTS_NONFINITE : Fld := ⟨R.TEU_EVENTS, 3, 1⟩
def TEU_EVENTS_QUEUE_FULL : Fld := ⟨R.TEU_EVENTS, 2, 1⟩
def TEU_EVENTS_PASS2_PLACED : Fld := ⟨R.TEU_EVENTS, 1, 1⟩
def TEU_EVENTS_LOAD_REFUSED : Fld := ⟨R.TEU_EVENTS, 0, 1⟩
def TEU_EVENTS_REOCC_COUNT : Fld := ⟨R.TEU_EVENTS_REOCC, 0, 32⟩
def TEU_FREE_MIN_FREE (p : Nat) : Fld := ⟨(R.TEU_FREE_MIN p), 0, 15⟩
def TEU_COUNT_COUNT (p : Nat) : Fld := ⟨(R.TEU_COUNT p), 0, 48⟩
def SLOT_CFG_DECLARED (p : Nat) : Fld := ⟨(R.SLOT_CFG p), 31, 1⟩
def SLOT_CFG_KIND (p : Nat) : Fld := ⟨(R.SLOT_CFG p), 0, 1⟩
def SLOT_STATUS_LOADED (p : Nat) : Fld := ⟨(R.SLOT_STATUS p), 31, 1⟩
def SLOT_STATUS_LOADING (p : Nat) : Fld := ⟨(R.SLOT_STATUS p), 30, 1⟩
def SLOT_STATUS_FAULTED (p : Nat) : Fld := ⟨(R.SLOT_STATUS p), 29, 1⟩
def SLOT_STATUS_ACTIVE_BUF (p : Nat) : Fld := ⟨(R.SLOT_STATUS p), 28, 1⟩
def SLOT_STATUS_PASSES (p : Nat) : Fld := ⟨(R.SLOT_STATUS p), 26, 2⟩
def SLOT_STATUS_DEPTH (p : Nat) : Fld := ⟨(R.SLOT_STATUS p), 16, 6⟩
def SLOT_STATUS_N_OUT_M1 (p : Nat) : Fld := ⟨(R.SLOT_STATUS p), 12, 4⟩
def SLOT_STATUS_LINK (p : Nat) : Fld := ⟨(R.SLOT_STATUS p), 8, 4⟩
def SLOT_TREES_PASS1_TREES (p : Nat) : Fld := ⟨(R.SLOT_TREES p), 16, 13⟩
def SLOT_TREES_TREES (p : Nat) : Fld := ⟨(R.SLOT_TREES p), 0, 13⟩
def SLOT_NODES_NODES (p : Nat) : Fld := ⟨(R.SLOT_NODES p), 0, 21⟩
def SLOT_VERSION_VERSION (p : Nat) : Fld := ⟨(R.SLOT_VERSION p), 0, 32⟩
def SLOT_SAMPLES_COUNT (p : Nat) : Fld := ⟨(R.SLOT_SAMPLES p), 0, 48⟩
def CUT_CTRL_ALIGNED_PORTS : Fld := ⟨R.CUT_CTRL, 16, 16⟩
def CUT_CTRL_PAD_CAP : Fld := ⟨R.CUT_CTRL, 0, 14⟩
def CUT_MISS_TIMEOUT_TICKS : Fld := ⟨R.CUT_MISS_TIMEOUT, 0, 24⟩
def CUT_QUEUE_OCC_BRIDGEQ : Fld := ⟨R.CUT_QUEUE_OCC, 16, 11⟩
def CUT_QUEUE_OCC_MISSQ : Fld := ⟨R.CUT_QUEUE_OCC, 0, 13⟩
def CUT_PIN_OCC_ASSEMBLY : Fld := ⟨R.CUT_PIN_OCC, 19, 13⟩
def CUT_PIN_OCC_PINNED : Fld := ⟨R.CUT_PIN_OCC, 0, 19⟩
def CUT_TABLE_INVALIDATE_TABLES : Fld := ⟨R.CUT_TABLE_INVALIDATE, 0, 16⟩
def CUT_STATUS_INVAL_BUSY : Fld := ⟨R.CUT_STATUS, 0, 1⟩
def CUT_EVENTS_INVAL_DONE : Fld := ⟨R.CUT_EVENTS, 7, 1⟩
def CUT_EVENTS_WRITEBACK_ERR : Fld := ⟨R.CUT_EVENTS, 6, 1⟩
def CUT_EVENTS_PIN_WAIT : Fld := ⟨R.CUT_EVENTS, 5, 1⟩
def CUT_EVENTS_SHED_DROP : Fld := ⟨R.CUT_EVENTS, 4, 1⟩
def CUT_EVENTS_REPLY_POISONED : Fld := ⟨R.CUT_EVENTS, 3, 1⟩
def CUT_EVENTS_FETCH_POISON : Fld := ⟨R.CUT_EVENTS, 2, 1⟩
def CUT_EVENTS_BRIDGEQ_FULL : Fld := ⟨R.CUT_EVENTS, 1, 1⟩
def CUT_EVENTS_MISSQ_FULL : Fld := ⟨R.CUT_EVENTS, 0, 1⟩
def CUT_EVENTS_REOCC_COUNT : Fld := ⟨R.CUT_EVENTS_REOCC, 0, 32⟩
def CUT_TABLE_BASE_VALID (p : Nat) : Fld := ⟨(R.CUT_TABLE_BASE p), 63, 1⟩
def CUT_TABLE_BASE_WRITABLE (p : Nat) : Fld := ⟨(R.CUT_TABLE_BASE p), 62, 1⟩
def CUT_TABLE_BASE_BASE (p : Nat) : Fld := ⟨(R.CUT_TABLE_BASE p), 7, 49⟩
def CUT_TABLE_SIZE_ENTITIES (p : Nat) : Fld := ⟨(R.CUT_TABLE_SIZE p), 0, 33⟩
def CUT_COUNT_COUNT (p : Nat) : Fld := ⟨(R.CUT_COUNT p), 0, 48⟩
def CUT_LATENCY_HIST_COUNT (p : Nat) : Fld := ⟨(R.CUT_LATENCY_HIST p), 0, 48⟩
def CUT_SHED_ANSWERED_COUNT (p : Nat) : Fld := ⟨(R.CUT_SHED_ANSWERED p), 0, 48⟩
def CUT_SHED_DROPPED_COUNT (p : Nat) : Fld := ⟨(R.CUT_SHED_DROPPED p), 0, 48⟩
def SAMPLE_CTRL_VALID (p : Nat) : Fld := ⟨(R.SAMPLE_CTRL p), 1, 1⟩
def SAMPLE_CTRL_ARM (p : Nat) : Fld := ⟨(R.SAMPLE_CTRL p), 0, 1⟩
def SAMPLE_ID_REQUEST_ID (p : Nat) : Fld := ⟨(R.SAMPLE_ID p), 0, 64⟩
def SAMPLE_RX_NS_NS (p : Nat) : Fld := ⟨(R.SAMPLE_RX_NS p), 0, 30⟩
def SAMPLE_TX_NS_NS (p : Nat) : Fld := ⟨(R.SAMPLE_TX_NS p), 0, 30⟩
def SAMPLE_FRAC_TX_FRAC (p : Nat) : Fld := ⟨(R.SAMPLE_FRAC p), 16, 16⟩
def SAMPLE_FRAC_RX_FRAC (p : Nat) : Fld := ⟨(R.SAMPLE_FRAC p), 0, 16⟩
def SAMPLE_LAT_LATENCY_CYC (p : Nat) : Fld := ⟨(R.SAMPLE_LAT p), 0, 16⟩
def JOB_STATUS_PLAN : Fld := ⟨R.JOB_STATUS, 18, 6⟩
def JOB_STATUS_TRAINING : Fld := ⟨R.JOB_STATUS, 17, 1⟩
def JOB_STATUS_RUNNING : Fld := ⟨R.JOB_STATUS, 16, 1⟩
def JOB_STATUS_QUEUE_OCC : Fld := ⟨R.JOB_STATUS, 0, 9⟩
def JOB_PLAN_STORE_SIZE_MIB : Fld := ⟨R.JOB_PLAN_STORE, 48, 16⟩
def JOB_PLAN_STORE_BASE : Fld := ⟨R.JOB_PLAN_STORE, 20, 24⟩
def JOB_MBX_RELEASE_MAILBOX : Fld := ⟨R.JOB_MBX_RELEASE, 0, 12⟩
def JOB_EVENTS_MAILBOX_READY : Fld := ⟨R.JOB_EVENTS, 8, 1⟩
def JOB_EVENTS_ROUND_FAILED : Fld := ⟨R.JOB_EVENTS, 7, 1⟩
def JOB_EVENTS_MAILBOX_MISUSE : Fld := ⟨R.JOB_EVENTS, 6, 1⟩
def JOB_EVENTS_QUEUE_FULL : Fld := ⟨R.JOB_EVENTS, 5, 1⟩
def JOB_EVENTS_JOB_FAULTED : Fld := ⟨R.JOB_EVENTS, 4, 1⟩
def JOB_EVENTS_SEQ_NOT_OPEN : Fld := ⟨R.JOB_EVENTS, 3, 1⟩
def JOB_EVENTS_RESIDENT_REFUSED : Fld := ⟨R.JOB_EVENTS, 2, 1⟩
def JOB_EVENTS_ACC_OVERCOMMIT : Fld := ⟨R.JOB_EVENTS, 1, 1⟩
def JOB_EVENTS_SHAPE_EXCEEDS : Fld := ⟨R.JOB_EVENTS, 0, 1⟩
def JOB_EVENTS_REOCC_COUNT : Fld := ⟨R.JOB_EVENTS_REOCC, 0, 32⟩
def JOB_COUNT_COUNT (p : Nat) : Fld := ⟨(R.JOB_COUNT p), 0, 48⟩
def JOB_PLAN_INFO_LOADED (p : Nat) : Fld := ⟨(R.JOB_PLAN_INFO p), 31, 1⟩
def JOB_PLAN_INFO_REPRODUCIBLE (p : Nat) : Fld := ⟨(R.JOB_PLAN_INFO p), 30, 1⟩
def JOB_PLAN_INFO_HAS_FOLDED (p : Nat) : Fld := ⟨(R.JOB_PLAN_INFO p), 29, 1⟩
def JOB_PLAN_INFO_HAS_CHUNKING (p : Nat) : Fld := ⟨(R.JOB_PLAN_INFO p), 28, 1⟩
def JOB_PLAN_INFO_KIND (p : Nat) : Fld := ⟨(R.JOB_PLAN_INFO p), 27, 1⟩
def JOB_PLAN_INFO_N_DIMS (p : Nat) : Fld := ⟨(R.JOB_PLAN_INFO p), 20, 3⟩
def JOB_PLAN_INFO_N_SHARDS_M1 (p : Nat) : Fld := ⟨(R.JOB_PLAN_INFO p), 0, 16⟩
def JOB_PLAN_VERSION_VERSION (p : Nat) : Fld := ⟨(R.JOB_PLAN_VERSION p), 0, 32⟩
def GRID_STATUS_HOLDING (p : Nat) : Fld := ⟨(R.GRID_STATUS p), 2, 1⟩
def GRID_STATUS_BECALMED (p : Nat) : Fld := ⟨(R.GRID_STATUS p), 1, 1⟩
def GRID_STATUS_RUNNING (p : Nat) : Fld := ⟨(R.GRID_STATUS p), 0, 1⟩
def GRID_PLAN_CYCLE_CYCLE (p : Nat) : Fld := ⟨(R.GRID_PLAN_CYCLE p), 0, 48⟩
def GRID_NE_CFG_NE_ROWS (p : Nat) : Fld := ⟨(R.GRID_NE_CFG p), 16, 3⟩
def GRID_NE_CFG_NE_WIDTH (p : Nat) : Fld := ⟨(R.GRID_NE_CFG p), 8, 6⟩
def GRID_NE_CFG_NE_COL0 (p : Nat) : Fld := ⟨(R.GRID_NE_CFG p), 0, 6⟩
def GRID_AWAIT_LIMIT_TICKS (p : Nat) : Fld := ⟨(R.GRID_AWAIT_LIMIT p), 0, 24⟩
def GRID_EVENTS_TILE_FAILED (p : Nat) : Fld := ⟨(R.GRID_EVENTS p), 6, 1⟩
def GRID_EVENTS_NE_FAULT (p : Nat) : Fld := ⟨(R.GRID_EVENTS p), 5, 1⟩
def GRID_EVENTS_AWAIT_TIMEOUT (p : Nat) : Fld := ⟨(R.GRID_EVENTS p), 4, 1⟩
def GRID_EVENTS_PLAN_FAULT (p : Nat) : Fld := ⟨(R.GRID_EVENTS p), 3, 1⟩
def GRID_EVENTS_UNCORR (p : Nat) : Fld := ⟨(R.GRID_EVENTS p), 2, 1⟩
def GRID_EVENTS_CORR (p : Nat) : Fld := ⟨(R.GRID_EVENTS p), 1, 1⟩
def GRID_EVENTS_BECALM (p : Nat) : Fld := ⟨(R.GRID_EVENTS p), 0, 1⟩
def GRID_EVENTS_REOCC_COUNT (p : Nat) : Fld := ⟨(R.GRID_EVENTS_REOCC p), 0, 32⟩
def GRID_FAULT_SITE_CAUSE (p : Nat) : Fld := ⟨(R.GRID_FAULT_SITE p), 28, 4⟩
def GRID_FAULT_SITE_STRAND (p : Nat) : Fld := ⟨(R.GRID_FAULT_SITE p), 20, 8⟩
def GRID_FAULT_SITE_NEURAL (p : Nat) : Fld := ⟨(R.GRID_FAULT_SITE p), 19, 1⟩
def GRID_FAULT_SITE_COLUMN (p : Nat) : Fld := ⟨(R.GRID_FAULT_SITE p), 8, 6⟩
def GRID_FAULT_SITE_ROW (p : Nat) : Fld := ⟨(R.GRID_FAULT_SITE p), 0, 5⟩
def GRID_FAULT_PC_PC (p : Nat) : Fld := ⟨(R.GRID_FAULT_PC p), 0, 32⟩
def GRID_FAULT_CYCLE_CYCLE (p : Nat) : Fld := ⟨(R.GRID_FAULT_CYCLE p), 0, 48⟩
def GRID_SRAM_ERR_KIND (p : Nat) : Fld := ⟨(R.GRID_SRAM_ERR p), 62, 2⟩
def GRID_SRAM_ERR_UNCORR (p : Nat) : Fld := ⟨(R.GRID_SRAM_ERR p), 61, 1⟩
def GRID_SRAM_ERR_COLUMN (p : Nat) : Fld := ⟨(R.GRID_SRAM_ERR p), 40, 6⟩
def GRID_SRAM_ERR_ROW (p : Nat) : Fld := ⟨(R.GRID_SRAM_ERR p), 32, 5⟩
def GRID_SRAM_ERR_ROW_ADDR (p : Nat) : Fld := ⟨(R.GRID_SRAM_ERR p), 0, 13⟩
def GRID_FAILED_SITE_VALID (p : Nat) : Fld := ⟨(R.GRID_FAILED_SITE p), 31, 1⟩
def GRID_FAILED_SITE_COLUMN (p : Nat) : Fld := ⟨(R.GRID_FAILED_SITE p), 8, 6⟩
def GRID_FAILED_SITE_ROW (p : Nat) : Fld := ⟨(R.GRID_FAILED_SITE p), 0, 5⟩
def GRID_COUNT_COUNT (p : Nat) (q : Nat) : Fld := ⟨(R.GRID_COUNT p q), 0, 48⟩
def QNT_STATUS_OPEN : Fld := ⟨R.QNT_STATUS, 8, 8⟩
def QNT_STATUS_BUSY : Fld := ⟨R.QNT_STATUS, 0, 8⟩
def QNT_EVENTS_SEQ_ORDER : Fld := ⟨R.QNT_EVENTS, 6, 1⟩
def QNT_EVENTS_BAD_MASTER : Fld := ⟨R.QNT_EVENTS, 5, 1⟩
def QNT_EVENTS_BLOCK_SAT : Fld := ⟨R.QNT_EVENTS, 4, 1⟩
def QNT_EVENTS_NONFINITE_BLOCK : Fld := ⟨R.QNT_EVENTS, 3, 1⟩
def QNT_EVENTS_CENSUS_ERR : Fld := ⟨R.QNT_EVENTS, 2, 1⟩
def QNT_EVENTS_REPLAY_EXHAUSTED : Fld := ⟨R.QNT_EVENTS, 1, 1⟩
def QNT_EVENTS_SCALE_ALARM : Fld := ⟨R.QNT_EVENTS, 0, 1⟩
def QNT_EVENTS_REOCC_COUNT : Fld := ⟨R.QNT_EVENTS_REOCC, 0, 32⟩
def QNT_ALARM_REC_KIND : Fld := ⟨R.QNT_ALARM_REC, 62, 2⟩
def QNT_ALARM_REC_SEQ : Fld := ⟨R.QNT_ALARM_REC, 56, 3⟩
def QNT_ALARM_REC_TENSOR : Fld := ⟨R.QNT_ALARM_REC, 40, 16⟩
def QNT_ALARM_REC_STEP : Fld := ⟨R.QNT_ALARM_REC, 0, 40⟩
def QNT_COUNT_COUNT (p : Nat) : Fld := ⟨(R.QNT_COUNT p), 0, 48⟩
def SEQ_CFG_ENABLE (p : Nat) : Fld := ⟨(R.SEQ_CFG p), 31, 1⟩
def SEQ_CFG_MAX_REPLAY (p : Nat) : Fld := ⟨(R.SEQ_CFG p), 20, 4⟩
def SEQ_CFG_TENSORS (p : Nat) : Fld := ⟨(R.SEQ_CFG p), 0, 16⟩
def SEQ_DIR_ADDRESS (p : Nat) : Fld := ⟨(R.SEQ_DIR p), 0, 56⟩
def SEQ_CENSUS_ADDRESS (p : Nat) : Fld := ⟨(R.SEQ_CENSUS p), 0, 56⟩
def SEQ_UP_FACTOR (p : Nat) : Fld := ⟨(R.SEQ_UP p), 0, 32⟩
def SEQ_DOWN_FACTOR (p : Nat) : Fld := ⟨(R.SEQ_DOWN p), 0, 32⟩
def SEQ_STEP_STEP (p : Nat) : Fld := ⟨(R.SEQ_STEP p), 0, 40⟩
def SEQ_VERDICT_VERDICT (p : Nat) : Fld := ⟨(R.SEQ_VERDICT p), 28, 4⟩
def SEQ_VERDICT_REPLAYS (p : Nat) : Fld := ⟨(R.SEQ_VERDICT p), 24, 4⟩
def SEQ_VERDICT_FAR_TENSORS (p : Nat) : Fld := ⟨(R.SEQ_VERDICT p), 0, 16⟩
def SEQ_CTRL_CLOSE (p : Nat) : Fld := ⟨(R.SEQ_CTRL p), 1, 1⟩
def SEQ_CTRL_OPEN (p : Nat) : Fld := ⟨(R.SEQ_CTRL p), 0, 1⟩
def RIG_CTRL_SERVING_SHARE : Fld := ⟨R.RIG_CTRL, 8, 4⟩
def RIG_CTRL_RETRY_LIMIT : Fld := ⟨R.RIG_CTRL, 0, 4⟩
def RIG_RACK_RACK_COUNT : Fld := ⟨R.RIG_RACK, 16, 13⟩
def RIG_RACK_RACK_BASE : Fld := ⟨R.RIG_RACK, 0, 12⟩
def RIG_REMOTE_CTRL_MASK_BLOCKS : Fld := ⟨R.RIG_REMOTE_CTRL_MASK, 0, 17⟩
def RIG_TIMEOUT_TICKS : Fld := ⟨R.RIG_TIMEOUT, 0, 24⟩
def RIG_REDUCE_TIMEOUT_TICKS : Fld := ⟨R.RIG_REDUCE_TIMEOUT, 0, 24⟩
def RIG_GAPS_RED_RETRY_GAP : Fld := ⟨R.RIG_GAPS, 16, 16⟩
def RIG_GAPS_POLL_INTERVAL : Fld := ⟨R.RIG_GAPS, 0, 16⟩
def RIG_OUTSTANDING_OPS : Fld := ⟨R.RIG_OUTSTANDING, 0, 17⟩
def RIG_EVENTS_BAD_OPCODE : Fld := ⟨R.RIG_EVENTS, 10, 1⟩
def RIG_EVENTS_DOORBELL_FULL : Fld := ⟨R.RIG_EVENTS, 9, 1⟩
def RIG_EVENTS_RED_DUPLICATE : Fld := ⟨R.RIG_EVENTS, 8, 1⟩
def RIG_EVENTS_RED_FAILED : Fld := ⟨R.RIG_EVENTS, 7, 1⟩
def RIG_EVENTS_REMOTE_DENIED : Fld := ⟨R.RIG_EVENTS, 6, 1⟩
def RIG_EVENTS_MISROUTED : Fld := ⟨R.RIG_EVENTS, 5, 1⟩
def RIG_EVENTS_UNREACHABLE : Fld := ⟨R.RIG_EVENTS, 4, 1⟩
def RIG_EVENTS_E2E_ERROR : Fld := ⟨R.RIG_EVENTS, 3, 1⟩
def RIG_EVENTS_LINK_LOST : Fld := ⟨R.RIG_EVENTS, 2, 1⟩
def RIG_EVENTS_TIMEOUT : Fld := ⟨R.RIG_EVENTS, 1, 1⟩
def RIG_EVENTS_PORT_EVENT : Fld := ⟨R.RIG_EVENTS, 0, 1⟩
def RIG_EVENTS_REOCC_COUNT : Fld := ⟨R.RIG_EVENTS_REOCC, 0, 32⟩
def RIG_ERR_REC_STATUS : Fld := ⟨R.RIG_ERR_REC, 56, 8⟩
def RIG_ERR_REC_ADDRESS : Fld := ⟨R.RIG_ERR_REC, 0, 56⟩
def RIG_COUNT_COUNT (p : Nat) : Fld := ⟨(R.RIG_COUNT p), 0, 48⟩
def RIGP_CFG_PEER (p : Nat) : Fld := ⟨(R.RIGP_CFG p), 16, 12⟩
def RIGP_CFG_POL_INV (p : Nat) : Fld := ⟨(R.RIGP_CFG p), 8, 4⟩
def RIGP_CFG_ENC (p : Nat) : Fld := ⟨(R.RIGP_CFG p), 2, 1⟩
def RIGP_CFG_ROLE (p : Nat) : Fld := ⟨(R.RIGP_CFG p), 0, 2⟩
def RIGP_STATUS_REPLAY_OCC (p : Nat) : Fld := ⟨(R.RIGP_STATUS p), 16, 11⟩
def RIGP_STATUS_PEER_SEEN (p : Nat) : Fld := ⟨(R.RIGP_STATUS p), 4, 12⟩
def RIGP_STATUS_LINK_STATE (p : Nat) : Fld := ⟨(R.RIGP_STATUS p), 0, 4⟩
def RIGP_EVENTS_ATTEST_FAILED (p : Nat) : Fld := ⟨(R.RIGP_EVENTS p), 4, 1⟩
def RIGP_EVENTS_ENC_MISMATCH (p : Nat) : Fld := ⟨(R.RIGP_EVENTS p), 3, 1⟩
def RIGP_EVENTS_MISWIRED (p : Nat) : Fld := ⟨(R.RIGP_EVENTS p), 2, 1⟩
def RIGP_EVENTS_RETRY_LIMIT (p : Nat) : Fld := ⟨(R.RIGP_EVENTS p), 1, 1⟩
def RIGP_EVENTS_LINK_DOWN (p : Nat) : Fld := ⟨(R.RIGP_EVENTS p), 0, 1⟩
def RIGP_EVENTS_REOCC_COUNT (p : Nat) : Fld := ⟨(R.RIGP_EVENTS_REOCC p), 0, 32⟩
def RIGP_COUNT_COUNT (p : Nat) (q : Nat) : Fld := ⟨(R.RIGP_COUNT p q), 0, 48⟩
def RIG_ROUTE_FALLBACK (p : Nat) : Fld := ⟨(R.RIG_ROUTE p), 32, 32⟩
def RIG_ROUTE_PRIMARY (p : Nat) : Fld := ⟨(R.RIG_ROUTE p), 0, 32⟩
def RED_STAGE_BASE (p : Nat) : Fld := ⟨(R.RED_STAGE p), 20, 24⟩
def RED_STAGE_SIZE_MIB (p : Nat) : Fld := ⟨(R.RED_STAGE_SIZE p), 0, 16⟩
def RED_OCC_CHUNKS (p : Nat) : Fld := ⟨(R.RED_OCC p), 0, 24⟩
def REC_CFG_NEST_CAND : Fld := ⟨R.REC_CFG, 2, 1⟩
def REC_CFG_MODE : Fld := ⟨R.REC_CFG, 0, 2⟩
def REC_BUDDY_WARD : Fld := ⟨R.REC_BUDDY, 16, 12⟩
def REC_BUDDY_BUDDY : Fld := ⟨R.REC_BUDDY, 0, 12⟩
def REC_ALIAS_VALID : Fld := ⟨R.REC_ALIAS, 63, 1⟩
def REC_ALIAS_WARD : Fld := ⟨R.REC_ALIAS, 32, 12⟩
def REC_ALIAS_BUDDY : Fld := ⟨R.REC_ALIAS, 16, 12⟩
def REC_ALIAS_NUMBER : Fld := ⟨R.REC_ALIAS, 0, 12⟩
def REC_EPOCH_EPOCH : Fld := ⟨R.REC_EPOCH, 0, 64⟩
def REC_SERVE_EPOCH_EPOCH : Fld := ⟨R.REC_SERVE_EPOCH, 0, 64⟩
def REC_MIRROR_SIZE_MIB : Fld := ⟨R.REC_MIRROR, 48, 16⟩
def REC_MIRROR_BASE : Fld := ⟨R.REC_MIRROR, 20, 24⟩
def REC_SNAP_SIZE_MIB : Fld := ⟨R.REC_SNAP, 48, 16⟩
def REC_SNAP_BASE : Fld := ⟨R.REC_SNAP, 20, 24⟩
def REC_LOG_SIZE_MIB : Fld := ⟨R.REC_LOG, 48, 16⟩
def REC_LOG_BASE : Fld := ⟨R.REC_LOG, 20, 24⟩
def REC_LOG_STATE_CUT : Fld := ⟨R.REC_LOG_STATE, 32, 32⟩
def REC_LOG_STATE_HEAD : Fld := ⟨R.REC_LOG_STATE, 0, 32⟩
def REC_EVENTS_NUMBER_IN_USE : Fld := ⟨R.REC_EVENTS, 11, 1⟩
def REC_EVENTS_RECOVERY_ABORTED : Fld := ⟨R.REC_EVENTS, 10, 1⟩
def REC_EVENTS_WARD_UNPROTECTED : Fld := ⟨R.REC_EVENTS, 9, 1⟩
def REC_EVENTS_BUDDY_MISMATCH : Fld := ⟨R.REC_EVENTS, 8, 1⟩
def REC_EVENTS_NEST_LOST : Fld := ⟨R.REC_EVENTS, 7, 1⟩
def REC_EVENTS_NEST_TAKEOVER : Fld := ⟨R.REC_EVENTS, 6, 1⟩
def REC_EVENTS_UPD_HELD : Fld := ⟨R.REC_EVENTS, 5, 1⟩
def REC_EVENTS_LOG_FULL : Fld := ⟨R.REC_EVENTS, 4, 1⟩
def REC_EVENTS_EPOCH_FAILED : Fld := ⟨R.REC_EVENTS, 3, 1⟩
def REC_EVENTS_REMAP_DONE : Fld := ⟨R.REC_EVENTS, 2, 1⟩
def REC_EVENTS_PEER_FAILED : Fld := ⟨R.REC_EVENTS, 1, 1⟩
def REC_EVENTS_FENCED : Fld := ⟨R.REC_EVENTS, 0, 1⟩
def REC_EVENTS_REOCC_COUNT : Fld := ⟨R.REC_EVENTS_REOCC, 0, 32⟩
def REC_TABLE_HOLD_TABLES : Fld := ⟨R.REC_TABLE_HOLD, 0, 16⟩
def REC_HEARTBEAT_HB_MISS : Fld := ⟨R.REC_HEARTBEAT, 24, 8⟩
def REC_HEARTBEAT_HB_PERIOD : Fld := ⟨R.REC_HEARTBEAT, 0, 24⟩
def REC_NEST_STATUS_HOLDER : Fld := ⟨R.REC_NEST_STATUS, 31, 1⟩
def REC_NEST_STATUS_STANDBY : Fld := ⟨R.REC_NEST_STATUS, 30, 1⟩
def REC_NEST_STATUS_SEEN : Fld := ⟨R.REC_NEST_STATUS, 0, 12⟩
def REC_NEST_CTRL_LEAVE : Fld := ⟨R.REC_NEST_CTRL, 1, 1⟩
def REC_NEST_CTRL_TAKE : Fld := ⟨R.REC_NEST_CTRL, 0, 1⟩
def REC_EPOCH_TIMES_EPOCH_LIMIT : Fld := ⟨R.REC_EPOCH_TIMES, 16, 16⟩
def REC_EPOCH_TIMES_EPOCH_PERIOD : Fld := ⟨R.REC_EPOCH_TIMES, 0, 16⟩
def REC_REPLICA_VALID (p : Nat) : Fld := ⟨(R.REC_REPLICA p), 63, 1⟩
def REC_REPLICA_ADDRESS (p : Nat) : Fld := ⟨(R.REC_REPLICA p), 0, 56⟩
def REC_COUNT_COUNT (p : Nat) : Fld := ⟨(R.REC_COUNT p), 0, 48⟩
def REC_FENCE_FENCED (p : Nat) : Fld := ⟨(R.REC_FENCE p), 0, 64⟩
def REC_RANGE_BASE_VALID (p : Nat) : Fld := ⟨(R.REC_RANGE_BASE p), 63, 1⟩
def REC_RANGE_BASE_CLASS (p : Nat) : Fld := ⟨(R.REC_RANGE_BASE p), 62, 1⟩
def REC_RANGE_BASE_BASE (p : Nat) : Fld := ⟨(R.REC_RANGE_BASE p), 12, 32⟩
def REC_RANGE_LEN_OWNER (p : Nat) : Fld := ⟨(R.REC_RANGE_LEN p), 32, 32⟩
def REC_RANGE_LEN_PAGES (p : Nat) : Fld := ⟨(R.REC_RANGE_LEN p), 0, 32⟩
def REC_SERVE_ROUTE_FALLBACK (p : Nat) (q : Nat) : Fld := ⟨(R.REC_SERVE_ROUTE p q), 32, 32⟩
def REC_SERVE_ROUTE_PRIMARY (p : Nat) (q : Nat) : Fld := ⟨(R.REC_SERVE_ROUTE p q), 0, 32⟩
def MEM_HOLD_CTRL_SERVING_WAYS (p : Nat) : Fld := ⟨(R.MEM_HOLD_CTRL p), 16, 16⟩
def MEM_HOLD_CTRL_COMPUTE_WAYS (p : Nat) : Fld := ⟨(R.MEM_HOLD_CTRL p), 0, 16⟩
def MEM_SCRUB_CTRL_HBM_INTERVAL (p : Nat) : Fld := ⟨(R.MEM_SCRUB_CTRL p), 16, 16⟩
def MEM_SCRUB_CTRL_TILE_INTERVAL (p : Nat) : Fld := ⟨(R.MEM_SCRUB_CTRL p), 0, 12⟩
def MEM_RES_RELEASE_OWNER (p : Nat) : Fld := ⟨(R.MEM_RES_RELEASE p), 0, 32⟩
def MEM_RES_STATUS_RELEASE_PENDING (p : Nat) : Fld := ⟨(R.MEM_RES_STATUS p), 0, 1⟩
def MEM_EVENTS_HBM_UNCORR (p : Nat) : Fld := ⟨(R.MEM_EVENTS p), 5, 1⟩
def MEM_EVENTS_HBM_CORR (p : Nat) : Fld := ⟨(R.MEM_EVENTS p), 4, 1⟩
def MEM_EVENTS_HOLD_UNCORR (p : Nat) : Fld := ⟨(R.MEM_EVENTS p), 3, 1⟩
def MEM_EVENTS_HOLD_CORR (p : Nat) : Fld := ⟨(R.MEM_EVENTS p), 2, 1⟩
def MEM_EVENTS_SCRUB_CORR (p : Nat) : Fld := ⟨(R.MEM_EVENTS p), 1, 1⟩
def MEM_EVENTS_LATE_WRITE (p : Nat) : Fld := ⟨(R.MEM_EVENTS p), 0, 1⟩
def MEM_EVENTS_REOCC_COUNT (p : Nat) : Fld := ⟨(R.MEM_EVENTS_REOCC p), 0, 32⟩
def MEM_LATE_WRITE_REC_SOURCE (p : Nat) : Fld := ⟨(R.MEM_LATE_WRITE_REC p), 62, 2⟩
def MEM_LATE_WRITE_REC_COLUMN (p : Nat) : Fld := ⟨(R.MEM_LATE_WRITE_REC p), 40, 6⟩
def MEM_LATE_WRITE_REC_ROW (p : Nat) : Fld := ⟨(R.MEM_LATE_WRITE_REC p), 32, 5⟩
def MEM_LATE_WRITE_REC_BANK (p : Nat) : Fld := ⟨(R.MEM_LATE_WRITE_REC p), 16, 4⟩
def MEM_LATE_WRITE_REC_ROW_ADDR (p : Nat) : Fld := ⟨(R.MEM_LATE_WRITE_REC p), 0, 13⟩
def MEM_ERR_ADDR_IN_HBM (p : Nat) : Fld := ⟨(R.MEM_ERR_ADDR p), 63, 1⟩
def MEM_ERR_ADDR_ADDRESS (p : Nat) : Fld := ⟨(R.MEM_ERR_ADDR p), 6, 34⟩
def MEM_COUNT_COUNT (p : Nat) (q : Nat) : Fld := ⟨(R.MEM_COUNT p q), 0, 48⟩
def MEM_HBM_STATUS_TEMP (p : Nat) (q : Nat) : Fld := ⟨(R.MEM_HBM_STATUS p q), 24, 8⟩
def MEM_HBM_STATUS_REFRESH_2X (p : Nat) (q : Nat) : Fld := ⟨(R.MEM_HBM_STATUS p q), 1, 1⟩
def MEM_HBM_STATUS_TRAINED (p : Nat) (q : Nat) : Fld := ⟨(R.MEM_HBM_STATUS p q), 0, 1⟩

end F

/-- Register rows, part 0. -/
def regTable0 : List RegDesc := [
  ⟨0x0, [], 64, 0, 0, 0, 0, 0, 0x4b52074010000000⟩ /- IDENT -/,
  ⟨0x8, [], 64, 0, 0, 0, 0, 0, 0⟩ /- SERIAL -/,
  ⟨0x10, [], 32, 0, 0, 0, 0, 0xfff, 0⟩ /- MODULE_NUMBER -/,
  ⟨0x14, [], 32, 0, 0, 0, 0, 0, 0⟩ /- FUSE_STATUS -/,
  ⟨0x18, [], 32, 0, 0, 0, 0, 0, 0⟩ /- MODULE_STATE -/,
  ⟨0x40, [], 32, 0, 0xf, 0, 0, 0, 0⟩ /- DECODE_ERR -/,
  ⟨0x48, [], 64, 0, 0, 0, 0, 0, 0⟩ /- DECODE_ERR_ADDR -/,
  ⟨0x50, [], 32, 0, 0, 0, 0, 0, 0⟩ /- DECODE_ERR_COUNT -/,
  ⟨0x100, [], 64, 0, 0, 0, 0, 0, 0⟩ /- GL_SUMMARY -/,
  ⟨0x108, [], 64, 0xffff000fffff, 0, 0, 0, 0xffff000fffff, 0⟩ /- GL_SUMMARY_ENABLE -/,
  ⟨0x110, [], 64, 0xffff001fffff, 0, 0, 0, 0xffff001fffff, 0⟩ /- GL_ALERT_MASK -/,
  ⟨0x1000, [(0x8, 1024)], 64, 0, 0, 0, 0, 0, 0⟩ /- GL_RING_PENDING -/,
  ⟨0x100000, [], 32, 0, 0, 0, 0, 0, 0⟩ /- BOOT_STATUS -/,
  ⟨0x100004, [], 32, 0, 0, 0, 0, 0, 0⟩ /- BOOT_RESET_CAUSE -/,
  ⟨0x100008, [], 64, 0, 0, 0, 0, 0, 0⟩ /- BOOT_IMG_SEQ -/,
  ⟨0x100010, [], 64, 0, 0, 0, 0, 0, 0⟩ /- BOOT_TIMES -/,
  ⟨0x100018, [], 64, 0, 0, 0, 0, 0, 0⟩ /- BOOT_REFUSE_REC -/,
  ⟨0x100020, [], 32, 0, 0, 0, 0, 0xff3f0001, 0⟩ /- BOOT_START_CFG -/,
  ⟨0x100024, [], 32, 0xffff, 0, 0, 0, 0xffff, 0⟩ /- BOOT_WDT_CFG -/,
  ⟨0x100028, [], 32, 0, 0, 0, 0, 0, 0⟩ /- BOOT_WDT_KICK -/,
  ⟨0x10002c, [], 32, 0, 0, 0, 0, 0, 0⟩ /- BOOT_RESTART -/,
  ⟨0x100040, [], 32, 0, 0xf, 0, 0, 0, 0⟩ /- BOOT_EVENTS -/,
  ⟨0x100044, [], 32, 0, 0, 0, 0, 0, 0⟩ /- BOOT_EVENTS_REOCC -/,
  ⟨0x100050, [], 64, 0, 0, 0, 0, 0, 0⟩ /- BOOT_PRE_READY_DROPS -/]

/-- Register rows, part 1. -/
def regTable1 : List RegDesc := [
  ⟨0x200000, [], 32, 0, 0, 0, 0, 0, 0⟩ /- SEC_STATUS -/,
  ⟨0x200004, [], 32, 0, 0, 0, 0, 0, 0⟩ /- SEC_IMG_RESULT -/,
  ⟨0x200008, [], 32, 0, 0, 0, 0, 0, 0⟩ /- SEC_SVN -/,
  ⟨0x20000c, [], 32, 0, 0, 0, 0, 0, 0⟩ /- SEC_SVN_ADVANCE -/,
  ⟨0x200010, [], 32, 0, 0, 0, 0, 0, 0⟩ /- SEC_CERT_LEN -/,
  ⟨0x200040, [], 32, 0, 0xff, 0, 0, 0, 0⟩ /- SEC_EVENTS -/,
  ⟨0x200044, [], 32, 0, 0, 0, 0, 0, 0⟩ /- SEC_EVENTS_REOCC -/,
  ⟨0x200050, [], 32, 0, 0, 0, 0, 0, 0⟩ /- SEC_ATTEST_ERR_REC -/,
  ⟨0x200100, [(0x8, 10)], 64, 0, 0, 0, 0, 0, 0⟩ /- SEC_COUNT -/,
  ⟨0x201000, [(0x8, 6)], 64, 0, 0, 0, 0, 0, 0⟩ /- SEC_ROOT_HASH -/,
  ⟨0x202000, [(0x80, 8), (0x8, 13)], 64, 0, 0, 0, 0, 0xffffffffffffffff, 0⟩ /- SEC_OPKEY -/,
  ⟨0x300000, [], 32, 0, 0, 0, 0, 0, 0x5000fa0⟩ /- CLK_STATUS -/,
  ⟨0x300004, [], 32, 0, 0, 0, 0, 0x7f, 0⟩ /- CLK_N_CAP -/,
  ⟨0x300008, [], 64, 0, 0, 0, 0, 0, 0x7530000bb80⟩ /- CLK_RATES -/,
  ⟨0x300010, [], 32, 0xff000000, 0, 0, 0, 0xffff00ff, 0⟩ /- AGE_CFG -/,
  ⟨0x300014, [], 32, 0, 0, 0, 0, 0, 0⟩ /- AGE_LOG_IDX -/,
  ⟨0x300040, [], 32, 0, 0xf, 0, 0, 0, 0⟩ /- AGE_EVENTS -/,
  ⟨0x300044, [], 32, 0, 0, 0, 0, 0, 0⟩ /- AGE_EVENTS_REOCC -/,
  ⟨0x300080, [(0x8, 6)], 64, 0, 0, 0, 0, 0xffffffff0000, 0⟩ /- AGE_RAIL -/,
  ⟨0x300100, [], 32, 0xffffffff, 0, 0, 0, 0xffffffff, 0⟩ /- PWR_CFG -/,
  ⟨0x300108, [], 64, 0, 0, 0, 0, 0, 0⟩ /- PWR_STATUS -/,
  ⟨0x300110, [], 32, 0, 0, 0, 0, 0, 0⟩ /- PWR_THERM_STATUS -/,
  ⟨0x300140, [], 32, 0, 0xf, 0, 0, 0, 0⟩ /- PWR_EVENTS -/,
  ⟨0x300144, [], 32, 0, 0, 0, 0, 0, 0⟩ /- PWR_EVENTS_REOCC -/]

/-- Register rows, part 2. -/
def regTable2 : List RegDesc := [
  ⟨0x300180, [(0x8, 4)], 64, 0, 0, 0, 0, 0, 0⟩ /- PWR_COUNT -/,
  ⟨0x301000, [(0x8, 104)], 64, 0, 0, 0, 0, 0, 0⟩ /- AGE_MON -/,
  ⟨0x302000, [(0x8, 64)], 64, 0, 0, 0, 0, 0, 0⟩ /- AGE_LOG -/,
  ⟨0x400000, [(0x10000, 16)], 32, 0xef1, 0, 0, 0, 0xffd, 0⟩ /- ETH_PORT_CTRL -/,
  ⟨0x400004, [(0x10000, 16)], 32, 0, 0, 0, 0, 0, 0⟩ /- ETH_PORT_STATUS -/,
  ⟨0x400008, [(0x10000, 16)], 32, 0x7fff, 0, 0, 0, 0x7fff, 0⟩ /- ETH_MAX_FRAME -/,
  ⟨0x400010, [(0x10000, 16)], 32, 0x1ff01ff, 0, 0, 0, 0x1ff01ff, 0⟩ /- ETH_FC_THRESH -/,
  ⟨0x400014, [(0x10000, 16)], 32, 0xffff00ff, 0, 0, 0, 0xffff00ff, 0⟩ /- ETH_FC_TX -/,
  ⟨0x400018, [(0x10000, 16)], 32, 0, 0, 0, 0, 0, 0⟩ /- ETH_FC_STATE -/,
  ⟨0x400020, [(0x10000, 16)], 32, 0xffff0f, 0, 0, 0, 0xffff0f, 0⟩ /- ETH_PREEMPT_CTRL -/,
  ⟨0x400024, [(0x10000, 16)], 32, 0, 0, 0, 0, 0, 0⟩ /- ETH_PREEMPT_STATUS -/,
  ⟨0x400030, [(0x10000, 16), (0x4, 8)], 32, 0x1ffff, 0, 0, 0, 0x1ffff, 0⟩ /- ETH_ETYPE_ACCEPT -/,
  ⟨0x400080, [(0x10000, 16)], 32, 0xffffffff, 0, 0, 0, 0xffffffff, 0⟩ /- ETH_TS_CORR -/,
  ⟨0x400100, [(0x10000, 16), (0x8, 16)], 64, 0x8000ffffffffffff, 0, 0, 0, 0x8000ffffffffffff, 0⟩ /- ETH_UCAST -/,
  ⟨0x400200, [(0x10000, 16), (0x4, 16)], 32, 0xffffffff, 0, 0, 0, 0xffffffff, 0⟩ /- ETH_GHASH -/,
  ⟨0x400300, [(0x10000, 16)], 32, 0, 0x1f, 0, 0, 0, 0⟩ /- ETH_PORT_EVENTS -/,
  ⟨0x400304, [(0x10000, 16)], 32, 0, 0, 0, 0, 0, 0⟩ /- ETH_PORT_EVENTS_REOCC -/,
  ⟨0x400310, [(0x10000, 16)], 32, 0, 0, 0, 0, 0, 0⟩ /- ETH_CNT_CTRL -/,
  ⟨0x400400, [], 32, 0x3fffffff, 0, 0, 0, 0, 0⟩ /- ETH_PTP_NS -/,
  ⟨0x400404, [], 32, 0, 0, 0, 0, 0, 0⟩ /- ETH_PTP_FRAC -/,
  ⟨0x400408, [], 64, 0xffffffffffff, 0, 0, 0, 0, 0⟩ /- ETH_PTP_SEC -/,
  ⟨0x400410, [], 32, 0xffffffff, 0, 0, 0, 0, 0⟩ /- ETH_PTP_RATE -/,
  ⟨0x400414, [], 32, 0, 0, 0, 0, 0, 0⟩ /- ETH_PTP_STEP -/,
  ⟨0x600000, [(0x1000, 16), (0x8, 52)], 64, 0, 0, 0, 0, 0, 0⟩ /- ETH_COUNTER -/]

/-- Register rows, part 3. -/
def regTable3 : List RegDesc := [
  ⟨0x600800, [(0x1000, 16)], 64, 0, 0xfffffffffffff, 0, 0, 0, 0⟩ /- ETH_HALF_STATUS -/,
  ⟨0x600808, [(0x1000, 16)], 64, 0xfffffffffffff, 0, 0, 0, 0, 0xfffffffffffff⟩ /- ETH_HALF_ENABLE -/,
  ⟨0x600810, [(0x1000, 16)], 32, 0, 0, 0, 0, 0, 0⟩ /- ETH_HALF_REOCC -/,
  ⟨0x700000, [(0x100, 16), (0x4, 24)], 32, 0, 0, 0, 0xffffffff, 0, 0⟩ /- ETH_COMPAT -/,
  ⟨0x800000, [(0x40, 65536)], 64, 0x80ffffffffffffff, 0, 0, 0, 0, 0⟩ /- RING_BASE -/,
  ⟨0x800008, [(0x40, 65536)], 32, 0xff001f1d, 0, 0, 0, 0, 0x600⟩ /- RING_CFG -/,
  ⟨0x80000c, [(0x40, 65536)], 32, 0xffff00ff, 0, 0, 0, 0, 0⟩ /- RING_MASK -/,
  ⟨0x800010, [(0x40, 65536)], 32, 0, 0, 0, 0, 0, 0⟩ /- RING_DEV_IDX -/,
  ⟨0x800014, [(0x40, 65536)], 32, 0xffffffff, 0, 0, 0, 0, 0⟩ /- RING_SW_IDX -/,
  ⟨0x800018, [(0x40, 65536)], 64, 0, 0, 0, 0, 0, 0⟩ /- RING_DONE_COUNT -/,
  ⟨0x800020, [(0x40, 65536)], 32, 0, 0, 0, 0, 0, 0⟩ /- RING_NOBUF_DROPS -/,
  ⟨0x800024, [(0x40, 65536)], 32, 0, 0x1f, 0, 0, 0, 0⟩ /- RING_STATUS -/,
  ⟨0x800028, [(0x40, 65536)], 32, 0, 0, 0, 0, 0, 0⟩ /- RING_STATUS_REOCC -/,
  ⟨0x80002c, [(0x40, 65536)], 32, 0xffffffff, 0, 0, 0, 0, 0⟩ /- RING_IRQ_CTRL -/,
  ⟨0x800030, [(0x40, 65536)], 32, 0, 0, 0, 0, 0, 0⟩ /- RING_ERR_COUNT -/,
  ⟨0x800038, [(0x40, 65536)], 64, 0xc0ffffffffffffff, 0, 0, 0, 0, 0⟩ /- RING_IDX_MIRROR -/,
  ⟨0xc00000, [], 32, 0, 0, 0, 0, 0x7, 0⟩ /- HLY_CTRL -/,
  ⟨0xc00004, [], 32, 0, 0, 0, 0, 0xffff, 0⟩ /- HLY_ETYPE -/,
  ⟨0xc00008, [], 32, 0, 0, 0, 0, 0xffff, 0⟩ /- HLY_UDP -/,
  ⟨0xc0000c, [], 32, 0xff, 0, 0, 0, 0xff, 0⟩ /- HLY_TX -/,
  ⟨0xc00010, [], 32, 0xffffff, 0, 0, 0, 0xffffff, 0⟩ /- HLY_ECHO_WINDOW -/,
  ⟨0xc00014, [], 32, 0xffffff, 0, 0, 0, 0xffffff, 0⟩ /- HLY_UPD_TIMEOUT -/,
  ⟨0xc00018, [], 64, 0, 0, 0, 0, 0, 0⟩ /- HLY_LEDGER_OCC -/,
  ⟨0xc00020, [], 64, 0, 0, 0, 0, 0, 0⟩ /- HLY_BOOT_NONCE -/]

/-- Register rows, part 4. -/
def regTable4 : List RegDesc := [
  ⟨0xc00040, [], 32, 0, 0x1ff, 0, 0, 0, 0⟩ /- HLY_EVENTS -/,
  ⟨0xc00044, [], 32, 0, 0, 0, 0, 0, 0⟩ /- HLY_EVENTS_REOCC -/,
  ⟨0xc00080, [(0x8, 8)], 64, 0, 0, 0, 0, 0, 0⟩ /- HLY_CTRL_LAST_ID -/,
  ⟨0xc00100, [(0x8, 20)], 64, 0, 0, 0, 0, 0, 0⟩ /- HLY_COUNT -/,
  ⟨0xc10000, [(0x400, 64)], 32, 0, 0, 0, 0, 0x80007fff, 0⟩ /- TPL_CFG -/,
  ⟨0xc10040, [(0x400, 64), (0x8, 8)], 64, 0, 0, 0, 0, 0x800f1fff00003fff, 0⟩ /- TPL_KEY -/,
  ⟨0xc10100, [(0x400, 64), (0x8, 64)], 64, 0, 0, 0, 0, 0x800000fff0003fff, 0⟩ /- TPL_FIELD -/,
  ⟨0xd00000, [], 32, 0, 0, 0, 0, 0, 0⟩ /- TEU_QUEUE_OCC -/,
  ⟨0xd00010, [(0x4, 8)], 32, 0, 0, 0, 0, 0x7f7f7f7f, 0⟩ /- TEU_STAGE_BLOCKS -/,
  ⟨0xd00040, [], 32, 0, 0x7f, 0, 0, 0, 0⟩ /- TEU_EVENTS -/,
  ⟨0xd00044, [], 32, 0, 0, 0, 0, 0, 0⟩ /- TEU_EVENTS_REOCC -/,
  ⟨0xd00080, [(0x4, 32)], 32, 0, 0, 0, 0, 0x7fff, 0⟩ /- TEU_FREE_MIN -/,
  ⟨0xd00100, [(0x8, 12)], 64, 0, 0, 0, 0, 0, 0⟩ /- TEU_COUNT -/,
  ⟨0xd01000, [(0x20, 16)], 32, 0, 0, 0, 0, 0x80000001, 0⟩ /- SLOT_CFG -/,
  ⟨0xd01004, [(0x20, 16)], 32, 0, 0, 0, 0, 0x9c3fff00, 0⟩ /- SLOT_STATUS -/,
  ⟨0xd01008, [(0x20, 16)], 32, 0, 0, 0, 0, 0x1fff1fff, 0⟩ /- SLOT_TREES -/,
  ⟨0xd0100c, [(0x20, 16)], 32, 0, 0, 0, 0, 0x1fffff, 0⟩ /- SLOT_NODES -/,
  ⟨0xd01010, [(0x20, 16)], 32, 0, 0, 0, 0, 0, 0⟩ /- SLOT_VERSION -/,
  ⟨0xd01018, [(0x20, 16)], 64, 0, 0, 0, 0, 0, 0⟩ /- SLOT_SAMPLES -/,
  ⟨0xe00000, [], 32, 0xffff3fff, 0, 0, 0, 0xffff3fff, 0⟩ /- CUT_CTRL -/,
  ⟨0xe00004, [], 32, 0xffffff, 0, 0, 0, 0xffffff, 0⟩ /- CUT_MISS_TIMEOUT -/,
  ⟨0xe00008, [], 32, 0, 0, 0, 0, 0, 0⟩ /- CUT_QUEUE_OCC -/,
  ⟨0xe0000c, [], 32, 0, 0, 0, 0, 0, 0⟩ /- CUT_PIN_OCC -/,
  ⟨0xe00010, [], 32, 0, 0, 0, 0, 0, 0⟩ /- CUT_TABLE_INVALIDATE -/]

/-- Register rows, part 5. -/
def regTable5 : List RegDesc := [
  ⟨0xe00014, [], 32, 0, 0, 0, 0, 0, 0⟩ /- CUT_STATUS -/,
  ⟨0xe00040, [], 32, 0, 0xff, 0, 0, 0, 0⟩ /- CUT_EVENTS -/,
  ⟨0xe00044, [], 32, 0, 0, 0, 0, 0, 0⟩ /- CUT_EVENTS_REOCC -/,
  ⟨0xe00080, [(0x8, 16)], 64, 0, 0, 0, 0, 0xc0ffffffffffff80, 0⟩ /- CUT_TABLE_BASE -/,
  ⟨0xe00100, [(0x8, 16)], 64, 0, 0, 0, 0, 0x1ffffffff, 0⟩ /- CUT_TABLE_SIZE -/,
  ⟨0xe00200, [(0x8, 22)], 64, 0, 0, 0, 0, 0, 0⟩ /- CUT_COUNT -/,
  ⟨0xe00300, [(0x8, 8)], 64, 0, 0, 0, 0, 0, 0⟩ /- CUT_LATENCY_HIST -/,
  ⟨0xe01000, [(0x10, 16)], 64, 0, 0, 0, 0, 0, 0⟩ /- CUT_SHED_ANSWERED -/,
  ⟨0xe01008, [(0x10, 16)], 64, 0, 0, 0, 0, 0, 0⟩ /- CUT_SHED_DROPPED -/,
  ⟨0xe02000, [(0x20, 16)], 32, 0, 0, 0x1, 0, 0, 0⟩ /- SAMPLE_CTRL -/,
  ⟨0xe02008, [(0x20, 16)], 64, 0, 0, 0, 0, 0, 0⟩ /- SAMPLE_ID -/,
  ⟨0xe02010, [(0x20, 16)], 32, 0, 0, 0, 0, 0, 0⟩ /- SAMPLE_RX_NS -/,
  ⟨0xe02014, [(0x20, 16)], 32, 0, 0, 0, 0, 0, 0⟩ /- SAMPLE_TX_NS -/,
  ⟨0xe02018, [(0x20, 16)], 32, 0, 0, 0, 0, 0, 0⟩ /- SAMPLE_FRAC -/,
  ⟨0xe0201c, [(0x20, 16)], 32, 0, 0, 0, 0, 0, 0⟩ /- SAMPLE_LAT -/,
  ⟨0xf00000, [], 32, 0, 0, 0, 0, 0, 0⟩ /- JOB_STATUS -/,
  ⟨0xf00008, [], 64, 0, 0, 0, 0, 0xffff0ffffff00000, 0⟩ /- JOB_PLAN_STORE -/,
  ⟨0xf00010, [], 32, 0, 0, 0, 0, 0, 0⟩ /- JOB_MBX_RELEASE -/,
  ⟨0xf00040, [], 32, 0, 0x1ff, 0, 0, 0, 0⟩ /- JOB_EVENTS -/,
  ⟨0xf00044, [], 32, 0, 0, 0, 0, 0, 0⟩ /- JOB_EVENTS_REOCC -/,
  ⟨0xf00100, [(0x8, 12)], 64, 0, 0, 0, 0, 0, 0⟩ /- JOB_COUNT -/,
  ⟨0xf01000, [(0x10, 64)], 32, 0, 0, 0, 0, 0, 0⟩ /- JOB_PLAN_INFO -/,
  ⟨0xf01004, [(0x10, 64)], 32, 0, 0, 0, 0, 0, 0⟩ /- JOB_PLAN_VERSION -/,
  ⟨0x2000000, [(0x1000000, 4)], 32, 0, 0, 0, 0, 0, 0⟩ /- GRID_STATUS -/]

/-- Register rows, part 6. -/
def regTable6 : List RegDesc := [
  ⟨0x2000008, [(0x1000000, 4)], 64, 0, 0, 0, 0, 0, 0⟩ /- GRID_PLAN_CYCLE -/,
  ⟨0x2000010, [(0x1000000, 4)], 32, 0, 0, 0, 0, 0x73f3f, 0⟩ /- GRID_NE_CFG -/,
  ⟨0x2000014, [(0x1000000, 4)], 32, 0xffffff, 0, 0, 0, 0xffffff, 0⟩ /- GRID_AWAIT_LIMIT -/,
  ⟨0x2000040, [(0x1000000, 4)], 32, 0, 0x7f, 0, 0, 0, 0⟩ /- GRID_EVENTS -/,
  ⟨0x2000044, [(0x1000000, 4)], 32, 0, 0, 0, 0, 0, 0⟩ /- GRID_EVENTS_REOCC -/,
  ⟨0x2000050, [(0x1000000, 4)], 32, 0, 0, 0, 0, 0, 0⟩ /- GRID_FAULT_SITE -/,
  ⟨0x2000054, [(0x1000000, 4)], 32, 0, 0, 0, 0, 0, 0⟩ /- GRID_FAULT_PC -/,
  ⟨0x2000058, [(0x1000000, 4)], 64, 0, 0, 0, 0, 0, 0⟩ /- GRID_FAULT_CYCLE -/,
  ⟨0x2000060, [(0x1000000, 4)], 64, 0, 0, 0, 0, 0, 0⟩ /- GRID_SRAM_ERR -/,
  ⟨0x2000068, [(0x1000000, 4)], 32, 0, 0, 0, 0, 0, 0⟩ /- GRID_FAILED_SITE -/,
  ⟨0x2000100, [(0x1000000, 4), (0x8, 10)], 64, 0, 0, 0, 0, 0, 0⟩ /- GRID_COUNT -/,
  ⟨0x2f00000, [], 32, 0, 0, 0, 0, 0, 0⟩ /- QNT_STATUS -/,
  ⟨0x2f00040, [], 32, 0, 0x7f, 0, 0, 0, 0⟩ /- QNT_EVENTS -/,
  ⟨0x2f00044, [], 32, 0, 0, 0, 0, 0, 0⟩ /- QNT_EVENTS_REOCC -/,
  ⟨0x2f00050, [], 64, 0, 0, 0, 0, 0, 0⟩ /- QNT_ALARM_REC -/,
  ⟨0x2f00100, [(0x8, 12)], 64, 0, 0, 0, 0, 0, 0⟩ /- QNT_COUNT -/,
  ⟨0x2f01000, [(0x40, 8)], 32, 0x80f0ffff, 0, 0, 0, 0, 0⟩ /- SEQ_CFG -/,
  ⟨0x2f01008, [(0x40, 8)], 64, 0xffffffffffffff, 0, 0, 0, 0, 0⟩ /- SEQ_DIR -/,
  ⟨0x2f01010, [(0x40, 8)], 64, 0xffffffffffffff, 0, 0, 0, 0, 0⟩ /- SEQ_CENSUS -/,
  ⟨0x2f01018, [(0x40, 8)], 32, 0xffffffff, 0, 0, 0, 0, 0x3f880000⟩ /- SEQ_UP -/,
  ⟨0x2f0101c, [(0x40, 8)], 32, 0xffffffff, 0, 0, 0, 0, 0x3f700000⟩ /- SEQ_DOWN -/,
  ⟨0x2f01020, [(0x40, 8)], 64, 0, 0, 0, 0, 0, 0⟩ /- SEQ_STEP -/,
  ⟨0x2f01028, [(0x40, 8)], 32, 0, 0, 0, 0, 0, 0⟩ /- SEQ_VERDICT -/,
  ⟨0x2f0102c, [(0x40, 8)], 32, 0, 0, 0, 0, 0, 0⟩ /- SEQ_CTRL -/]

/-- Register rows, part 7. -/
def regTable7 : List RegDesc := [
  ⟨0x6000000, [], 32, 0xf0f, 0, 0, 0, 0xf0f, 0⟩ /- RIG_CTRL -/,
  ⟨0x6000004, [], 32, 0, 0, 0, 0, 0x1fff0fff, 0⟩ /- RIG_RACK -/,
  ⟨0x6000008, [], 32, 0x1ffff, 0, 0, 0, 0x1ffff, 0⟩ /- RIG_REMOTE_CTRL_MASK -/,
  ⟨0x600000c, [], 32, 0xffffff, 0, 0, 0, 0xffffff, 0⟩ /- RIG_TIMEOUT -/,
  ⟨0x6000010, [], 32, 0xffffff, 0, 0, 0, 0xffffff, 0⟩ /- RIG_REDUCE_TIMEOUT -/,
  ⟨0x6000014, [], 32, 0xffffffff, 0, 0, 0, 0xffffffff, 0⟩ /- RIG_GAPS -/,
  ⟨0x6000018, [], 32, 0, 0, 0, 0, 0, 0⟩ /- RIG_OUTSTANDING -/,
  ⟨0x6000040, [], 32, 0, 0x7ff, 0, 0, 0, 0⟩ /- RIG_EVENTS -/,
  ⟨0x6000044, [], 32, 0, 0, 0, 0, 0, 0⟩ /- RIG_EVENTS_REOCC -/,
  ⟨0x6000050, [], 64, 0, 0, 0, 0, 0, 0⟩ /- RIG_ERR_REC -/,
  ⟨0x6000100, [(0x8, 19)], 64, 0, 0, 0, 0, 0, 0⟩ /- RIG_COUNT -/,
  ⟨0x6001000, [(0x100, 32)], 32, 0, 0, 0, 0, 0xfff0f07, 0⟩ /- RIGP_CFG -/,
  ⟨0x6001004, [(0x100, 32)], 32, 0, 0, 0, 0, 0, 0⟩ /- RIGP_STATUS -/,
  ⟨0x6001008, [(0x100, 32)], 32, 0, 0x1f, 0, 0, 0, 0⟩ /- RIGP_EVENTS -/,
  ⟨0x600100c, [(0x100, 32)], 32, 0, 0, 0, 0, 0, 0⟩ /- RIGP_EVENTS_REOCC -/,
  ⟨0x6001080, [(0x100, 32), (0x8, 14)], 64, 0, 0, 0, 0, 0, 0⟩ /- RIGP_COUNT -/,
  ⟨0x6010000, [(0x8, 4096)], 64, 0xffffffffffffffff, 0, 0, 0, 0xffffffffffffffff, 0⟩ /- RIG_ROUTE -/,
  ⟨0x6020000, [(0x100, 4)], 64, 0, 0, 0, 0, 0xffffff00000, 0⟩ /- RED_STAGE -/,
  ⟨0x6020008, [(0x100, 4)], 32, 0, 0, 0, 0, 0xffff, 0⟩ /- RED_STAGE_SIZE -/,
  ⟨0x602000c, [(0x100, 4)], 32, 0, 0, 0, 0, 0, 0⟩ /- RED_OCC -/,
  ⟨0x7000000, [], 32, 0x3, 0, 0, 0, 0x4, 0x1⟩ /- REC_CFG -/,
  ⟨0x7000004, [], 32, 0, 0, 0, 0, 0xfff0fff, 0⟩ /- REC_BUDDY -/,
  ⟨0x7000008, [], 64, 0x80000fff0fff0fff, 0, 0, 0, 0, 0⟩ /- REC_ALIAS -/,
  ⟨0x7000010, [], 64, 0, 0, 0, 0, 0, 0⟩ /- REC_EPOCH -/]

/-- Register rows, part 8. -/
def regTable8 : List RegDesc := [
  ⟨0x7000018, [], 64, 0, 0, 0, 0, 0, 0⟩ /- REC_SERVE_EPOCH -/,
  ⟨0x7000020, [], 64, 0, 0, 0, 0, 0xffff0ffffff00000, 0⟩ /- REC_MIRROR -/,
  ⟨0x7000028, [], 64, 0, 0, 0, 0, 0xffff0ffffff00000, 0⟩ /- REC_SNAP -/,
  ⟨0x7000030, [], 64, 0, 0, 0, 0, 0xffff0ffffff00000, 0⟩ /- REC_LOG -/,
  ⟨0x7000038, [], 64, 0, 0, 0, 0, 0, 0⟩ /- REC_LOG_STATE -/,
  ⟨0x7000040, [], 32, 0, 0xfff, 0, 0, 0, 0⟩ /- REC_EVENTS -/,
  ⟨0x7000044, [], 32, 0, 0, 0, 0, 0, 0⟩ /- REC_EVENTS_REOCC -/,
  ⟨0x7000048, [], 32, 0xffff, 0, 0, 0, 0, 0⟩ /- REC_TABLE_HOLD -/,
  ⟨0x700004c, [], 32, 0xffffffff, 0, 0, 0, 0xffffffff, 0⟩ /- REC_HEARTBEAT -/,
  ⟨0x7000050, [], 32, 0, 0, 0, 0, 0, 0⟩ /- REC_NEST_STATUS -/,
  ⟨0x7000054, [], 32, 0, 0, 0, 0, 0, 0⟩ /- REC_NEST_CTRL -/,
  ⟨0x7000058, [], 32, 0xffffffff, 0, 0, 0, 0xffffffff, 0⟩ /- REC_EPOCH_TIMES -/,
  ⟨0x7000060, [(0x8, 3)], 64, 0x80ffffffffffffff, 0, 0, 0, 0x80ffffffffffffff, 0⟩ /- REC_REPLICA -/,
  ⟨0x7000100, [(0x8, 13)], 64, 0, 0, 0, 0, 0, 0⟩ /- REC_COUNT -/,
  ⟨0x7000200, [(0x8, 64)], 64, 0xffffffffffffffff, 0, 0, 0, 0, 0⟩ /- REC_FENCE -/,
  ⟨0x7000400, [(0x10, 16)], 64, 0xc0000ffffffff000, 0, 0, 0, 0xc0000ffffffff000, 0⟩ /- REC_RANGE_BASE -/,
  ⟨0x7000408, [(0x10, 16)], 64, 0xffffffffffffffff, 0, 0, 0, 0xffffffffffffffff, 0⟩ /- REC_RANGE_LEN -/,
  ⟨0x7010000, [(0x10000, 2), (0x8, 4096)], 64, 0xffffffffffffffff, 0, 0, 0, 0xffffffffffffffff, 0⟩ /- REC_SERVE_ROUTE -/,
  ⟨0x8000000, [(0x400000, 4)], 32, 0xffffffff, 0, 0, 0, 0xffffffff, 0⟩ /- MEM_HOLD_CTRL -/,
  ⟨0x8000004, [(0x400000, 4)], 32, 0xffff0fff, 0, 0, 0, 0xffff0fff, 0⟩ /- MEM_SCRUB_CTRL -/,
  ⟨0x8000008, [(0x400000, 4)], 32, 0, 0, 0, 0, 0, 0⟩ /- MEM_RES_RELEASE -/,
  ⟨0x800000c, [(0x400000, 4)], 32, 0, 0, 0, 0, 0, 0⟩ /- MEM_RES_STATUS -/,
  ⟨0x8000040, [(0x400000, 4)], 32, 0, 0x3f, 0, 0, 0, 0⟩ /- MEM_EVENTS -/,
  ⟨0x8000044, [(0x400000, 4)], 32, 0, 0, 0, 0, 0, 0⟩ /- MEM_EVENTS_REOCC -/]

/-- Register rows, part 9. -/
def regTable9 : List RegDesc := [
  ⟨0x8000050, [(0x400000, 4)], 64, 0, 0, 0, 0, 0, 0⟩ /- MEM_LATE_WRITE_REC -/,
  ⟨0x8000058, [(0x400000, 4)], 64, 0, 0, 0, 0, 0, 0⟩ /- MEM_ERR_ADDR -/,
  ⟨0x8000100, [(0x400000, 4), (0x8, 13)], 64, 0, 0, 0, 0, 0, 0⟩ /- MEM_COUNT -/,
  ⟨0x8001000, [(0x400000, 4), (0x100, 2)], 32, 0, 0, 0, 0, 0, 0⟩ /- MEM_HBM_STATUS -/]

/-- Every register of the control space that the register tables of spec/ lay out. -/
def regTable : List RegDesc :=
  regTable0 ++ regTable1 ++ regTable2 ++ regTable3 ++ regTable4 ++ regTable5 ++ regTable6 ++ regTable7 ++ regTable8 ++ regTable9

/-- The rows whose reset value is not zero. -/
def resetRows : List RegDesc := [
  ⟨0x0, [], 64, 0, 0, 0, 0, 0, 0x4b52074010000000⟩ /- IDENT -/,
  ⟨0x300000, [], 32, 0, 0, 0, 0, 0, 0x5000fa0⟩ /- CLK_STATUS -/,
  ⟨0x300008, [], 64, 0, 0, 0, 0, 0, 0x7530000bb80⟩ /- CLK_RATES -/,
  ⟨0x600808, [(0x1000, 16)], 64, 0xfffffffffffff, 0, 0, 0, 0, 0xfffffffffffff⟩ /- ETH_HALF_ENABLE -/,
  ⟨0x800008, [(0x40, 65536)], 32, 0xff001f1d, 0, 0, 0, 0, 0x600⟩ /- RING_CFG -/,
  ⟨0x2f01018, [(0x40, 8)], 32, 0xffffffff, 0, 0, 0, 0, 0x3f880000⟩ /- SEQ_UP -/,
  ⟨0x2f0101c, [(0x40, 8)], 32, 0xffffffff, 0, 0, 0, 0, 0x3f700000⟩ /- SEQ_DOWN -/,
  ⟨0x7000000, [], 32, 0x3, 0, 0, 0, 0x4, 0x1⟩ /- REC_CFG -/]

end Sys2Proof.Machine
end

