-- ==== Sys2Proof/Machine/State.lean ====
section
/-! DEFINITION. The state of the module: every register, table, queue, buffer, counter and pin of the spec as plain
data, the queue of waiting commands, and the state after reset. Registers of the control space are kept in one sparse
table from control-space offset to value; what an unlisted register reads as is `regReset` (Machine/Ops.lean). -/

namespace Sys2Proof.Machine

/-- No command of this block ends in a fault: the spec gives each of them an effect, a refusal of its own, or none.
The type has no constructor, so no meaning can fault. -/
inductive Fault
  deriving DecidableEq, Repr

/-- A command without a meaning. -/
inductive Refusal where
  /-- Raised by a dispatch arm whose command has no meaning yet; safe: the model stops where the hardware goes on. -/
  | notModelled (mnemonic : String)
  deriving DecidableEq, Repr

/-- A PTP instant in the parts of R66: seconds, nanoseconds, and the fraction in units of 2^-48 ns
(the 16 shown bits of 2^-16 ns above the 32 hidden ones). -/
structure Instant where
  sec : Nat := 0
  ns : Nat := 0
  frac : Nat := 0
  deriving DecidableEq, Repr

/-- One requester's PTP latch (R76). -/
structure PtpLatch where
  frac : Nat := 0
  sec : Nat := 0
  deriving DecidableEq, Repr

/-- A stretch of time over which the PTP clock advances by one step per CK_NET cycle: its first cycle, the clock then and
the step, in units of 2^-48 ns (the model's own record, from which receive stamps are taken). -/
structure PtpRun where
  from_ : Nat
  units : Nat
  step : Nat
  deriving DecidableEq, Repr

/-- The PTP clock (R66) with the staged seconds and the three requester latches of R76. -/
structure Ptp where
  clock : Instant := {}
  staged : Nat := 0
  latches : List (Nat × PtpLatch) := []
  /-- the stretches so far, newest first -/
  runs : List PtpRun := []
  deriving DecidableEq, Repr

/-- What a transmit frame is (R93): a ring frame, a reply-builder frame, or a generated PAUSE or PFC frame. -/
inductive TxKind where
  | ring (n : Nat)
  | reply (key : Nat)
  | ack (key : Nat)
  | genPause
  | genPfc
  deriving DecidableEq, Repr

/-- One frame offered to a port, from destination address to the end of its payload (no FCS). -/
structure TxFrame where
  kind : TxKind
  bytes : List Byte
  prio : Option Nat := none
  express : Bool := true
  /-- cycle in which it became a candidate (R93 test 5) -/
  since : Nat := 0
  /-- order in which the ledger checked the message it answers (R93 test 5) -/
  order : Nat := 0
  /-- a REPLY of the serving path, for counting under R59 and R64 -/
  isReply : Bool := false
  /-- counted in REPLY_HELD_PAUSE already (R64: once) -/
  held : Bool := false
  /-- counted in REPLY_WAITED already -/
  waited : Bool := false
  /-- an echo of a REPLY (R122) -/
  echo : Bool := false
  /-- what the ledger records once it is sent (R123); kind 0 when nothing is recorded -/
  answerKind : Nat := 0
  answerBody : List Byte := []
  /-- mPackets it is sent in, when preempted (TX_FRAGMENT) -/
  frags : Nat := 0
  /-- transmit stamp, taken when the first byte crosses (R67), and the cycle it crosses in -/
  stamp : Instant := {}
  startAt : Nat := 0
  deriving DecidableEq, Repr

/-- A ring frame staged or waiting for staging (R91). -/
structure StagedTx where
  ring : Nat
  /-- (descriptor, its 32 bytes) of the frame, in ring order -/
  descs : List (List Byte)
  bytes : List Byte := []
  len : Nat
  prio : Nat
  stampReq : Bool
  /-- space taken in the 32 KiB store -/
  reading : Bool := false
  /-- all of it is staged -/
  ready : Bool := false
  started : Bool := false
  /-- cycle in which its length became known -/
  known : Nat := 0
  /-- cycle in which it became a candidate -/
  since : Nat := 0
  deriving DecidableEq, Repr

/-- One Ethernet port's engine state beside its registers. -/
structure EthPort where
  /-- frame being transmitted, and the preemptable frame it interrupted (R57) -/
  inProg : Option TxFrame := none
  susp : Option TxFrame := none
  /-- reply-builder frames offered and not started -/
  waiting : List TxFrame := []
  /-- the one generated PAUSE or PFC frame that may wait (R93) -/
  genWait : Option TxFrame := none
  /-- a pause is being generated (XOFF reached, XON not yet) -/
  xoff : Bool := false
  /-- cycle of the first byte of the last generated frame, in 1/1000 CK_NET -/
  lastGen : Nat := 0
  /-- end cycle of the PAUSE in force -/
  pauseEnd : Nat := 0
  /-- end cycle of the PFC pause in force, per priority -/
  pfcEnd : List (Nat × Nat) := []
  /-- frames of the port's TX rings, staged or waiting for the staging store -/
  staging : List StagedTx := []
  /-- TX ring last served (round robin, R93 test 6) -/
  lastRing : Nat := 0
  /-- PREEMPT_CTRL as the transmit side uses it, until the next frame boundary (R75) -/
  preemptEff : Nat := 0
  deriving DecidableEq, Repr

/-- A descriptor the device has read ahead of DEV_IDX (R497). -/
structure FetchedDesc where
  idx : Nat
  ok : Bool
  bytes : List Byte
  /-- cycle from which it is usable (R497) -/
  usable : Nat := 0
  deriving DecidableEq, Repr

/-- A descriptor a frame or record has taken: its 32 bytes, the bytes written to its buffer, whether some passed
through the spill buffer, and whether its own read failed (R498: it then belongs to no frame). -/
structure UsedDesc where
  bytes : List Byte
  len : Nat
  spilled : Bool := false
  bad : Bool := false
  deriving DecidableEq, Repr

/-- A received frame or a query record that has taken, or waits for, descriptors of its ring, in ring order. -/
structure RxItem where
  /-- 0 a frame of an RX ring, 1 a query record -/
  isRecord : Bool := false
  /-- descriptors taken, in ring order -/
  used : List UsedDesc := []
  /-- bytes not yet written -/
  rest : List Byte := []
  /-- cycle in which a frame's first byte crossed -/
  start : Nat := 0
  port : Nat := 0
  prio : Nat := 0
  vlan : Bool := false
  len : Nat := 0
  stamp : Instant := {}
  /-- STATUS it completes with, once decided (Table 3.4) -/
  outcome : Option Nat := none
  /-- key of the request a record belongs to -/
  key : Nat := 0
  /-- RECLOG: first unit and units taken -/
  unit : Nat := 0
  units : Nat := 0
  /-- the 32-byte header of a record and the bytes that follow it -/
  header : List Byte := []
  body : List Byte := []
  /-- bytes, counted from its first, in a 64-byte unit that a path code error marked with poison (R414) -/
  marks : List Nat := []
  deriving DecidableEq, Repr

/-- One ring's engine state beside its registers. -/
structure RingEng where
  /-- descriptors usable and not yet taken, in ring order -/
  fetched : List FetchedDesc := []
  /-- first descriptor not yet read (R497) -/
  readIdx : Nat := 0
  /-- frames and records in progress, oldest first -/
  items : List RxItem := []
  /-- descriptors of the TX frame being examined (R92) -/
  chain : List (List Byte) := []
  /-- RECLOG: units allocated to records not yet visible -/
  allocIdx : Nat := 0
  /-- advance count of R101 -/
  adv : Nat := 0
  /-- cycle of the first advance after a restart -/
  timerFrom : Option Nat := none
  deriving DecidableEq, Repr

/-- The recorded answer of a closed message (R118): the body bytes after the header, and for a REPLY its outputs,
status and pass count inside them. -/
structure Answer where
  kind : Nat := 0
  body : List Byte := []
  deriving DecidableEq, Repr

/-- One entry of the request ledger (R118). -/
structure LedgerEntry where
  /-- OPEN when true, ECHO when false -/
  isOpen : Bool
  kind : Nat
  slot : Nat
  port : Nat
  /-- admission epoch -/
  epoch : Nat
  /-- order of admission -/
  order : Nat
  answer : Answer := {}
  /-- cycle in which the echo window ends -/
  until_ : Nat := 0
  deriving DecidableEq, Repr

/-- What the ledger check found for the message arriving on a port (R119). -/
inductive Verdict where
  | admitted (key : Nat)
  | echo
  /-- discarded, counted under this HLY_COUNT index when the port accepts the frame (R121) -/
  | discard (counter : Nat)
  deriving DecidableEq, Repr

/-- A message whose header has crossed and whose frame has not yet ended. -/
structure InMsg where
  id : Nat
  kind : Nat
  slot : Nat
  verdict : Verdict
  deriving DecidableEq, Repr

/-- One of the 256 features (R136): pattern and poison; an unlisted feature is missing. -/
structure Feature where
  pat : W32
  poison : Bool := false
  deriving DecidableEq, Repr

/-- Where an admitted REQUEST stands in the serving path. -/
inductive Stage where
  | admitted
  | assembly
  | vector
  | queued
  | running
  | bridgeQueue
  | offload
  | ready
  | launched
  | gone
  deriving DecidableEq, Repr

/-- Whether a message's FCS and Halyard checks are decided. -/
inductive Checks where
  | open_
  | passed (cycle : Nat)
  | dropped (cycle : Nat)
  deriving DecidableEq, Repr

/-- A REQUEST admitted and not yet closed. -/
structure ReqCtx where
  id : Nat
  slot : Nat
  buf : Nat
  port : Nat
  tmpl : Nat
  epoch : Nat
  order : Nat
  car : Carriage := {}
  bodyLen : Nat := 0
  /-- message bytes held so far -/
  msg : List Byte := []
  /-- cycle in which the frame's first byte crossed -/
  first : Nat := 0
  /-- cycle in which the last needed byte crossed -/
  needed : Nat := 0
  /-- the request's first mPacket is preemptable (R177) -/
  preemptable : Bool := false
  missed : Bool := false
  features : List (Nat × Feature) := []
  /-- miss slots waited on -/
  waits : List Nat := []
  /-- cycle in which the last line arrived -/
  arrived : Nat := 0
  readyAt : Nat := 0
  startAt : Nat := 0
  stage : Stage := .admitted
  outputs : List W32 := []
  poisoned : Bool := false
  shed : Bool := false
  /-- cycle in which the reply is ready, and the cycle it launched in -/
  replyAt : Nat := 0
  launchAt : Nat := 0
  padLen : Nat := 0
  latency : Nat := 0
  /-- launch mode and pad cap in force when it became ready (Table 6.11) -/
  aligned : Bool := false
  padCap : Nat := 0
  capDelayed : Bool := false
  /-- counted in REPLY_HELD_PAUSE, in REPLY_WAITED -/
  held : Bool := false
  waited : Bool := false
  becalms : Nat := 0
  missedSlot : Bool := false
  checks : Checks := .open_
  /-- the request was cut short by R179 -/
  cutShort : Bool := false
  /-- ring its query record goes to -/
  ring : Option Nat := none
  deriving DecidableEq, Repr

/-- One entry of an UPDATE (Table 4.6). -/
structure UpdEntry where
  entity : Nat
  mask : Nat
  values : List W32
  deriving DecidableEq, Repr

/-- An UPDATE admitted and not yet committed or freed. -/
structure UpdCtx where
  id : Nat
  port : Nat
  order : Nat
  epoch : Nat
  car : Carriage := {}
  admitted : Nat := 0
  limit : Nat := 0
  /-- both checks passed and not refused: entries known -/
  known : Bool := false
  table : Nat := 0
  entries : List UpdEntry := []
  /-- entries whose line is pinned for this UPDATE -/
  pinned : List Nat := []
  waitedPin : Bool := false
  /-- its log record has begun (R394) -/
  begun : Bool := false
  /-- counted in LOG_FULL_WAITS -/
  logWaited : Bool := false
  /-- the buddy's report of storage, and the last pin: cycles -/
  stored : Option Nat := none
  pinnedAt : Option Nat := none
  failedWrites : Nat := 0
  deriving DecidableEq, Repr

/-- One line of the feature cache (R165). -/
structure CacheLine where
  table : Nat
  entity : Nat
  data : List Byte
  /-- UPDATEs and write-backs that pin it -/
  pins : Nat := 0
  /-- last use, for the replacement of R165 -/
  used : Nat := 0
  /-- write-backs not yet acknowledged -/
  wb : Nat := 0
  /-- cycle of the last failed write-back, when one is to be reissued -/
  wbFailed : Option Nat := none
  /-- its 64-byte half-lines that met an uncorrectable error while it was pinned (Table 15.4): bit h for half h -/
  poison : Nat := 0
  deriving DecidableEq, Repr

/-- One slot of the miss queue (R166). -/
structure MissSlot where
  table : Nat
  entity : Nat
  issued : Nat := 0
  limit : Nat := 0
  stale : Bool := false
  reqs : List Nat := []
  upds : List Nat := []
  deriving DecidableEq, Repr

/-- One node of the node store (Table 5.1, store form). -/
structure Node where
  value : W32 := 0
  feature : Nat := 0
  cmpInt : Bool := false
  dfltRight : Bool := false
  leaf : Bool := false
  output : Nat := 0
  left : Nat := 0
  right : Nat := 0
  inUse : Bool := false
  buf : Nat := 0
  slot : Nat := 0
  deriving DecidableEq, Repr

/-- One buffer of a model slot (R157). -/
structure ModelBuf where
  held : Bool := false
  neural : Bool := false
  trees : Nat := 0
  t1 : Nat := 0
  depth : Nat := 0
  nOut : Nat := 0
  link : Nat := 0
  shedMode : Nat := 0
  base : List W32 := []
  fallback : List W32 := []
  nNodes : Nat := 0
  passes : Nat := 0
  /-- stage-local index of each tree's root -/
  roots : List Nat := []
  tiles : Nat := 0
  interval : Nat := 0
  compute : Nat := 0
  plan : List Byte := []
  /-- no longer active, to be freed once nothing is bound to it -/
  leaving : Bool := false
  deriving DecidableEq, Repr

/-- A MODEL_LOAD accepted and not yet finished (R152). -/
structure LoadOp where
  ctl : CtlMsg
  slot : Nat := 0
  /-- past its checks: the buffer to be written and the node slots (global number, node) it takes -/
  checked : Bool := false
  cold : Bool := false
  model : ModelBuf := {}
  nodes : List (Nat × Node) := []
  deriving DecidableEq, Repr

/-- The Halyard side: ledger, messages arriving, UPDATEs, CONTROLs. -/
structure Hly where
  ledger : List (Nat × LedgerEntry) := []
  nextKey : Nat := 0
  inMsg : List (Nat × InMsg) := []
  upds : List (Nat × UpdCtx) := []
  ctlQueue : List CtlMsg := []
  deriving DecidableEq, Repr

/-- The cut-through serving path: feature cache, miss queue, requests. -/
structure Cut where
  lines : List (Nat × CacheLine) := []
  useCtr : Nat := 0
  miss : List (Nat × MissSlot) := []
  reqs : List (Nat × ReqCtx) := []
  bridgeQ : List Nat := []
  /-- tables of the invalidation walk in progress, and the cycle in which it visits set 0 -/
  walkTables : Nat := 0
  walkFrom : Nat := 0
  /-- tables whose fetches become stale at the end of the cycle before that -/
  walkMark : Nat := 0
  /-- next set the walk visits -/
  walkNext : Nat := 0
  deriving DecidableEq, Repr

/-- The tree engine. -/
structure Teu where
  nodes : List (Nat × Node) := []
  bufs : List (Nat × ModelBuf) := []
  /-- sample queue, in order -/
  queue : List Nat := []
  /-- reserved entry and exit cycles, as (first, count) (R145) -/
  entries : List (Nat × Nat) := []
  exits : List (Nat × Nat) := []
  lastStart : Option Nat := none
  loads : List LoadOp := []
  /-- next slot of the scrub (R160) -/
  scrubNext : Nat := 0
  deriving DecidableEq, Repr


/-- One way of a Hold set (R240, R241): the line it holds, and its valid and dirty bits by 64-byte sector. -/
structure HoldWay where
  line : Nat
  valid : Nat := 0
  dirty : Nat := 0
  deriving DecidableEq, Repr

/-- One set of a Hold: its ways in use and the 15 bits of its tree pseudo-LRU. -/
structure HoldSet where
  ways : List (Nat × HoldWay) := []
  plru : Nat := 0
  deriving DecidableEq, Repr


/-- One strand context of a tile (R196). -/
structure Strand where
  pc : Nat := 0
  /-- index of its first code word -/
  start : Nat := 0
  ended : Bool := false
  /-- loops in progress, innermost first: first word, word after the last, passes left -/
  loops : List (Nat × Nat × Nat) := []
  /-- first plan cycle in which it may issue again (R251, R297) -/
  free : Nat := 0
  deriving DecidableEq, Repr

/-- A fetched 32-byte unit of a matrix instruction: what it is (0 weight, 1 A vector, 2 to 4 A sheet entry rows and
exponent row, 5 to 7 those of B), its step and its group. -/
structure MatUnit where
  tag : Nat
  step : Nat
  g : Nat
  data : List Byte
  poison : Bool
  deriving DecidableEq, Repr

/-- A matrix instruction waiting for, or past, its start cycle (R251, R252): its six words as one number. -/
structure MatRun where
  q : Nat
  w : Nat
  pc : Nat
  start : Nat
  steps : Nat
  units : List MatUnit := []
  deriving DecidableEq, Repr

/-- A RESCALE waiting for, or past, its start (R297): its two words as one number, the table rows and rows read. -/
structure ResRun where
  w : Nat
  pc : Nat
  strand : Nat
  start : Nat
  tab : List (List Byte × Bool) := []
  rows : List (List W32 × Bool) := []
  /-- census binding in force when it started: sequence, CH_BASE, N_BASE -/
  bind : Option (Nat × Nat × Nat) := none
  deriving DecidableEq, Repr

/-- One channel record of a census buffer (R302, R303). -/
structure Census where
  elems : Nat := 0
  sat : Nat := 0
  under : Nat := 0
  amax : Nat := 0
  deriving DecidableEq, Repr

/-- A side-port write accepted and not yet performed (R235): site, first row, bytes, poison, its transfer. -/
structure SideWrite where
  site : Nat
  row : Nat
  data : List Byte
  poison : Bool
  xfer : Nat
  deriving DecidableEq, Repr

/-- One stream buffer (R257): flits landed, units taken, and the four slots. -/
structure Stream where
  landed : Nat := 0
  taken : Nat := 0
  slots : List (Nat × (List Byte × Bool)) := []
  deriving DecidableEq, Repr

/-- One tile of a running plan. -/
structure Tile where
  /-- SLOT_PERIOD entries: a strand, or none for IDLE -/
  slots : List (Option Nat) := []
  code : List W64 := []
  strands : List (Nat × Strand) := []
  sheets : List W64 := []
  /-- 0 not exported, 1 read-only, 2 read-write (R233) -/
  exported : Nat := 0
  /-- plan cycle of its last issue -/
  issued : Option Nat := none
  mats : List MatRun := []
  /-- per array: start and step count of the last matrix instruction (R251) -/
  matPrev : List (Nat × (Nat × Nat)) := []
  rescs : List ResRun := []
  resPrev : Option Nat := none
  /-- stream buffers (R257): 2q the A buffer of array q, 2q + 1 its B buffer -/
  streams : List (Nat × Stream) := []
  /-- banks furling or furled, banks powered down, and the plan cycle of each bank's erase (R234 to R237) -/
  furled : Nat := 0
  down : Nat := 0
  erase : List (Nat × Nat) := []
  /-- plan cycle from which a FURL of a bank may complete -/
  furlFrom : List (Nat × Nat) := []
  bind : Option (Nat × Nat × Nat) := none
  census : List (Nat × Census) := []
  deriving DecidableEq, Repr

/-- The instruction that has something due: its site, strand and first code word. -/
structure By where
  site : Nat
  strand : Nat
  pc : Nat
  deriving DecidableEq, Repr

/-- What a plan has due in a later plan cycle. -/
inductive PlanEv where
  /-- a row of the issuing site written, with byte enables -/
  | row (by_ : By) (row : Nat) (d : List Byte) (enable : Nat) (poison : Bool)
  /-- the scratchpad is read for a VEC -/
  | read (by_ : By)
  /-- a flit of a SEND leaves: the row it is read from, where and when it lands, and whether a path code error marks it
  with poison on its way (R414) -/
  | depart (by_ : By) (src dest target row land : Nat) (poison : Bool)
  /-- a flit lands at a site: TARGET and row of the SEND -/
  | flit (by_ : By) (site target row : Nat) (d : List Byte) (poison : Bool)
  /-- a schedule breach that shows in that cycle -/
  | breach (by_ : By) (cause : Nat)
  /-- a two-symbol error of an M-tile row read is detected (R210) -/
  | becalm (site row : Nat)
  deriving DecidableEq, Repr

/-- An AWAIT whose condition did not hold when it issued (R207). -/
structure Await where
  cycle : Nat
  site : Nat
  strand : Nat
  pc : Nat
  ac : Nat
  value : Nat
  /-- CK_ARITH cycle of its issue, and the first after it in which the condition holds -/
  issued : Nat
  met : Option Nat := none
  deriving DecidableEq, Repr

/-- A running plan: the compute invocation, or a neural serving plan. -/
structure Run where
  neural : Bool := false
  slot : Nat := 0
  buf : Nat := 0
  owner : Nat := 0
  seqMask : Nat := 0
  variant : Nat := 0
  selftest : Bool := false
  /-- current plan cycle, the last one, and the CK_ARITH cycle in which plan cycle 0 begins -/
  cycle : Nat := 0
  last : Nat := 0
  from_ : Nat := 0
  interval : Nat := 0
  tiles : List (Nat × Tile) := []
  events : List (Nat × PlanEv) := []
  /-- mesh links and channels taken, as (plan cycle, link) (R198) -/
  links : List (Nat × Nat) := []
  awaits : List Await := []
  /-- breaches of the plan cycle in progress, with their causes -/
  faults : List (By × Nat) := []
  /-- plan cycle and cause of its fault (R215) -/
  fault : Option (Nat × Nat) := none
  /-- it has passed its last plan cycle -/
  isOver : Bool := false
  /-- bucket values and run-time values of the dynamic dimensions -/
  bucket : List Nat := []
  dims : List Nat := []
  lists : List (List Nat) := []
  args : List Nat := []
  shard : Nat := 0
  reproducible : Bool := false
  /-- a POLL ended on a failed DONE word (Table 13.11) -/
  roundFailed : Bool := false
  /-- its end has been taken up (R231) -/
  closed : Bool := false
  deriving DecidableEq, Repr

/-- One DMA command of an M-tile's queue (R202), as accepted. -/
structure DmaCmd where
  id : Nat
  site : Nat
  strand : Nat := 0
  kind : Nat
  acq : Bool := false
  rel : Bool := false
  len : Nat := 0
  src : Nat := 0
  dst : Nat := 0
  aux0 : Nat := 0
  aux1 : Nat := 0
  /-- arrival counter: key of `Grid.acs` -/
  ac : Option Nat := none
  /-- first code word of the instruction -/
  pc : Nat := 0
  /-- where its data go: an operand word of Table 13.6, resolved -/
  dest : Nat := 0
  /-- its transfer has begun -/
  started : Bool := false
  /-- `data` is complete -/
  ready : Bool := false
  /-- the writes of its data have been sent, for a destination in another module -/
  pushed : Bool := false
  bad : Bool := false
  /-- the units to be written with their poison marks; no bytes where a unit was not delivered -/
  data : List (List Byte × Bool) := []
  /-- operations of the Rigging not yet ended, and what those that returned data returned, by address -/
  out : Nat := 0
  got : List (Nat × (List Byte × Nat)) := []
  /-- units its destination's side port has accepted -/
  offered : Nat := 0
  /-- REFORMAT: the exponent strip to be written -/
  strip : List Byte := []
  /-- chunks refused with REDUCE_BUSY, to be sent again: address, and the cycle of the refusal -/
  retry : List (Nat × Nat) := []
  /-- cycle of a POLL's last read -/
  pollAt : Nat := 0
  /-- census binding in force at acceptance: sequence, CH_BASE -/
  bind : Option (Nat × Nat) := none
  /-- the census flush it belongs to -/
  flush : Option Nat := none
  run : Nat := 0
  /-- units of a COPY that a path code error marks with poison (R414) -/
  path : List Nat := []
  deriving DecidableEq, Repr

/-- A census flush in progress (R304): its sequence, its counter, and whether it is an invocation's last. -/
structure Flush where
  seq : Nat
  ac : Option Nat := none
  atEnd : Bool := false
  left : Nat := 0
  deriving DecidableEq, Repr

/-- RESIDENT rows of a site (R228). -/
structure ResRange where
  first : Nat
  count : Nat
  owner : Nat
  deriving DecidableEq, Repr

/-- The compute grid (spec ch. 7 to 11). -/
structure Grid where
  /-- tile SRAM bytes that are not zero, and poison marks by row; keys as `sramKey` gives them -/
  sram : List Host.Cell := []
  sramPoison : List (Nat × Bool) := []
  /-- accumulator words and marks by row -/
  acc : List (Nat × W32) := []
  accPoison : List (Nat × Bool) := []
  /-- arrival counters (R203) -/
  acs : List (Nat × W32) := []
  /-- increments of the CK_ARITH cycle in progress, by counter (R205) -/
  acNow : List (Nat × Nat) := []
  residency : List (Nat × List ResRange) := []
  /-- owner tags whose release waits (R232) -/
  releases : List Nat := []
  /-- 0 the compute invocation, 1 + 2m + b a neural plan -/
  runs : List (Nat × Run) := []
  /-- sites being zeroed after an invocation, with the banks furled in them (R231) -/
  zeroing : List (Nat × Nat) := []
  /-- CK_ARITH cycles frozen by becalms, as (first, last) -/
  freezes : List (Nat × Nat) := []
  dma : List DmaCmd := []
  nextDma : Nat := 0
  /-- side-port writes accepted and not performed, oldest first -/
  side : List SideWrite := []
  flushes : List (Nat × Flush) := []
  nextFlush : Nat := 0
  /-- uncorrectable errors met at a row: site and row address (R219) -/
  uncorr : List (Nat × Nat) := []
  /-- next row of each tile scrubber, by site (R238), and next 256-byte unit of each patrol, by stack (R246) -/
  scrubRow : List (Nat × Nat) := []
  patrol : List (Nat × Nat) := []
  /-- sequences marked census lost, and OPEN and CLOSE operations waiting: (sequence, is OPEN) -/
  lost : Nat := 0
  seqOps : List (Nat × Bool) := []
  disabling : Nat := 0
  /-- a write of the sequence's last OPEN ended in an error: its next CLOSE is FAILED (R309) -/
  openErr : Nat := 0
  deriving DecidableEq, Repr



/-- One bank of JOB_SUBMIT (R364, R365). -/
structure SubmitBank where
  staged : List (Nat × W64) := []
  busy : Bool := false
  status : Nat := 0
  claimed : Option Nat := none
  /-- a GO since the claim began, and the owner's last access -/
  gone : Bool := false
  touched : Nat := 0
  deriving DecidableEq, Repr

/-- The dispatcher (spec ch. 13): job queue, plan store, mailboxes, submission banks.
Assumption log 96 (DESIGN CHOICE). -/
structure Jobs where
  /-- operations verified or submitted and not yet taken -/
  inbox : List JobOp := []
  queue : List JobOp := []
  cur : Option Dispatch := none
  plans : List (Nat × List Byte) := []
  banks : List (Nat × SubmitBank) := []
  mail : List (Nat × Mailbox) := []
  deriving DecidableEq, Repr


/-- Who issued an operation (R338), with what its response is for. -/
inductive Issuer where
  | ringDma (n : Nat)
  | missEngine (slot : Nat)
  | updateEngine (what : Nat) (key : Nat)
  | reduction (die : Nat)
  | mgmt
  | dma (tile : Nat) (cmd : Nat)
  | qnt (seq : Nat)
  | job
  /-- the checkpoint copy to the buddy or to an adopter (R391, R409) -/
  | copy
  | responder
  deriving DecidableEq, Repr

/-- An outstanding operation of a C-die's protocol engine (R336). -/
structure OutOp where
  pkt : Pkt
  issuer : Issuer
  port : Nat
  sentAt : Nat
  /-- cycle of its TIMEOUT, from the sending of its request -/
  limit : Nat
  /-- SERVE_ROUTE bank it was routed by (R407) -/
  bank : Option Nat := none
  deriving DecidableEq, Repr

/-- An operation whose issuer waits for room in a protocol engine's table or a port's transmit queue (R336, R357). -/
structure WaitOp where
  issuer : Issuer
  die : Nat
  opcode : Nat
  addr : Nat
  len : Nat
  aux : Nat
  flags : Nat
  payload : List Byte
  bank : Option Nat
  deriving DecidableEq, Repr

/-- How an operation ended: its issuer, STATUS, data and the POISON bits delivered. -/
structure Ended where
  issuer : Issuer
  status : Nat
  data : List Byte
  poison : Nat
  /-- address and payload of its request -/
  addr : Nat := 0
  sent : List Byte := []
  deriving DecidableEq, Repr

/-- One direction of an encrypted link (R355, R430): key, salt, packets counted since the join, key generation. -/
structure Crypt where
  key : List Byte := []
  salt : List Byte := []
  count : Nat := 0
  gen : Nat := 0
  deriving DecidableEq, Repr

/-- One Rigging port's link layer (R323 to R325) and attestation (R427 to R430). -/
structure RigPort where
  txSeq : Nat := 0
  rxSeq : Nat := 0
  /-- sent, not acknowledged, oldest first -/
  replay : List Pkt := []
  /-- waiting to be sent, per virtual channel -/
  q0 : List Pkt := []
  q1 : List Pkt := []
  q2 : List Pkt := []
  cred0 : Nat := 1024
  cred1 : Nat := 1024
  cred2 : Nat := 1024
  /-- choices between VC0 and VC1 made in the current 16 (R325) -/
  choice : Nat := 0
  nakSent : Bool := false
  /-- accepted since the last LINK_ACK, and the cycle of the first of them -/
  unacked : Nat := 0
  ackFrom : Nat := 0
  /-- cycle (CK_NET) of the last LINK_ACK advance or re-send -/
  advAt : Nat := 0
  resends : Nat := 0
  /-- cycle in which LINK_STATE was entered -/
  since : Nat := 0
  /-- cycle from which the packets of VC0, VC1, VC2 wait for credit (R357) -/
  stall0 : Option Nat := none
  stall1 : Option Nat := none
  stall2 : Option Nat := none
  /-- attestation: own HELLO, ephemeral private key, the peer's HELLO, TH, and whether this is the low end (R427) -/
  hello : List Byte := []
  priv : Nat := 0
  peer : List Byte := []
  th : List Byte := []
  low : Bool := false
  /-- link encryption, by direction -/
  tx : Crypt := {}
  rx : Crypt := {}
  deriving DecidableEq, Repr

/-- One contribution staged at a reduction engine (R351). -/
structure Staged where
  round : Nat
  chunk : Nat
  slot : Nat
  data : List Byte
  /-- POISON bits of its packet -/
  poison : Nat
  deriving DecidableEq, Repr

/-- One reduction group (Table 12.9) with its open rounds (R348). -/
structure RedGroup where
  declared : Bool := false
  plan : Nat := 0
  nSlots : Nat := 0
  length : Nat := 0
  bf16 : Bool := false
  dest : Nat := 0
  doneAddr : Nat := 0
  rc : Nat := 0
  /-- next slot of each chunk, keyed by (δ of the round) * 2^18 + chunk -/
  next : List (Nat × Nat) := []
  /-- cycle of the first contribution of the current round and of the next one -/
  first0 : Option Nat := none
  first1 : Option Nat := none
  staged : List Staged := []
  deriving DecidableEq, Repr

/-- The Rigging protocol engines. Assumption log 97 (DEDUCED). -/
structure Rig where
  ports : List (Nat × RigPort) := []
  nextTxn : Nat := 0
  ops : List (Nat × OutOp) := []
  /-- operations whose issuers wait for room, oldest first (R336, R357) -/
  waiting : List WaitOp := []
  ended : List Ended := []
  /-- reduction groups, keyed by die * 256 + GROUP -/
  groups : List (Nat × RedGroup) := []
  deriving DecidableEq, Repr

/-- One record of the update log at the buddy that is not yet stored, or is being cancelled (R394, R396). -/
structure LogRec where
  key : Nat
  id : Nat
  table : Nat
  entries : List UpdEntry
  /-- log position and serving epoch of its UPDATE -/
  pos : Nat
  epoch : Nat
  /-- writes issued and not completed -/
  out : Nat := 0
  /-- entry writes to be issued again: address, bytes, cycle of the failure -/
  failed : List (Nat × List Byte × Nat) := []
  /-- header write: 0 not issued, 1 issued, 2 completed with OK, 3 failed -/
  hdr : Nat := 0
  hdrFailedAt : Nat := 0
  /-- its UPDATE was freed, and the header is rewritten with CANCEL: 0 not issued, 1 issued, 3 failed -/
  cancel : Bool := false
  cxl : Nat := 0
  deriving DecidableEq, Repr

/-- A checkpoint in progress at this module (R391). -/
structure Checkpoint where
  /-- CUT recorded in step 1, and bytes it copies -/
  cut : Nat
  bytes : Nat
  /-- copies to other modules not yet completed, and whether one ended in an error -/
  left : Nat := 0
  /-- a LEAVING module's copy to the module that takes its number over (R409) -/
  handover : Bool := false
  failed : Bool := false
  /-- the state record it copies -/
  record : StateRecord := {}
  /-- notified: the copies are complete -/
  done : Bool := false
  deriving DecidableEq, Repr

/-- Recovery (spec ch. 14). Assumption log 21 (DEDUCED). -/
structure Rec where
  logs : List LogRec := []
  /-- TABLE_HOLD bits written and not yet in force (R404) -/
  holdWait : Nat := 0
  checkpoint : Option Checkpoint := none
  /-- active half of SNAP and of MIRROR -/
  half : Nat := 0
  /-- MIRROR_RANGE writes waiting for the next epoch (R388): offset and value -/
  rangeWait : List (Nat × W64) := []
  leaving : Bool := false
  left : Bool := false
  /-- SERVE_EPOCH is to advance to this value (R407) -/
  serveWant : Nat := 0
  hbStopped : Bool := false
  /-- crow's nest: last heartbeat word read and consecutive misses, by module -/
  hbSeen : List (Nat × (Nat × Nat)) := []
  /-- last majority lease word read, and the cycle in which it last changed -/
  lease : Nat := 0
  leaseAt : Nat := 0
  /-- cycle in which the holder's last majority renewal began -/
  renewAt : Nat := 0
  /-- an epoch is open; modules declared failed and not yet re-mapped; step of the re-map in progress -/
  epochOpen : Option Nat := none
  failedMods : List Nat := []
  /-- the state record of the last committed epoch -/
  saved : StateRecord := {}
  /-- cycles of the last heartbeat, heartbeat check and lease check -/
  hbAt : Nat := 0
  hbCheckAt : Nat := 0
  leaseCheckAt : Nat := 0
  deriving DecidableEq, Repr


/-- What manufacture fixed (R420, R422, R424, R1): fuses and the security engine's one-time store. They keep their values
across every reset kind. Assumption log 7 (DESIGN CHOICE). -/
structure Fuses where
  serial : W64 := 0
  /-- 48 bytes -/
  rootHash : List Byte := []
  linkEnc : Bool := false
  /-- blown bits of the SVN field -/
  svn : Nat := 0
  /-- identity private key, and the module's certificate chain -/
  idKey : Option Nat := none
  chain : List Byte := []
  deriving DecidableEq, Repr

/-- The start and the reset controller (spec ch. 16): what no register holds. -/
structure Boot where
  /-- cycle in which READY began -/
  readyAt : Option Nat := none
  /-- cycle in which MODULE_STATE last changed, and in which the start began -/
  stateAt : Nat := 0
  startAt : Nat := 0
  /-- the reset controller: cause of the reset in progress, consecutive watchdog starts (R438) -/
  cause : Nat := 0
  wdtCount : Nat := 0
  /-- RESET_N is held low (R437) -/
  resetLow : Bool := false
  /-- cycle of the last kick or start of the watchdog period, and whether the firmware runs (R440) -/
  kickAt : Nat := 0
  firmware : Bool := false
  /-- the management core is stopped by MGMT_UNCORR (R419) -/
  coreStopped : Bool := false
  /-- PERST_N is low (R478) -/
  perstLow : Bool := false
  /-- the module has met a failure of R385 and the rest of that rule is still to be done -/
  failing : Bool := false
  fuse : Fuses := {}
  /-- copies tried in this start, and the copy in use (R443) -/
  tried : List Nat := []
  /-- records of the image in use: denied keys, self-test plan and CRCs by site, initial models by slot, transmit taps by
  lane (R445) -/
  denied : List (List Byte) := []
  selfPlan : List Byte := []
  selfSites : List (Nat × Nat) := []
  models : List (Nat × List Byte) := []
  taps : List (Nat × Nat) := []
  /-- BOOT_NONCE has been drawn -/
  nonceDrawn : Bool := false
  /-- even N = 80 missed MARGIN_TARGET in step 6 (R464) -/
  retiring : Bool := false
  deriving DecidableEq, Repr


/-- Input, regulators, reference clocks, planner, test port and SMBus target (spec ch. 17, 18): what no register holds.
Assumption log 22 (DEDUCED), 135 (DESIGN CHOICE). -/
structure Pwr where
  /-- VIN has risen past 46 V and has not been removed (R471) -/
  vinUp : Bool := false
  /-- FAULT_CODE of the latched shutdown; 0 none (R473) -/
  latch : Nat := 0
  /-- a regulator did not report good: all are off until the input is removed (R474) -/
  startFail : Bool := false
  /-- MOD_PG -/
  good : Bool := false
  /-- cycle in which the charge began -/
  chargeAt : Nat := 0
  /-- reference clocks lost (R476): SYS_REFCLK, SERDES_REFCLK, PCIE_REFCLK -/
  sysLost : Bool := false
  serdesLost : Bool := false
  pcieLost : Bool := false
  /-- the PCI Express link is up, and its configuration space holds defaults -/
  pcieUp : Bool := false
  /-- a glide in progress: the N it goes to, and the cycle in which it completes (R460) -/
  glide : Option (Nat × Nat) := none
  /-- worst slack of each rail in this planner period, and the cycle in which the period began (R457, R458) -/
  worst : List (Nat × Int) := []
  periodAt : Nat := 0
  /-- next monitor block (R456), and the CK_TICK of its sample -/
  monNext : Nat := 0
  /-- cycle in which step 6 began (Table 17.19) -/
  step6At : Nat := 0
  /-- cycle of the last turn of the slow loop (R465) -/
  loopAt : Nat := 0
  /-- THROTTLE before its last change, and the CK_ARITH cycle of that change (R466) -/
  throttleOld : Nat := 0
  throttleAt : Nat := 0
  /-- cycle in which the latch was set (R473) -/
  latchAt : Nat := 0
  /-- SMB_ADDR[1:0] strap, the address acknowledged since step 4 (none before it, and while the regulators are held off),
  and the offset of the next SMBus read (R479) -/
  smbStrap : BitVec 2 := 0
  smbAddr : Option (BitVec 7) := none
  smbOffset : Nat := 0
  /-- test port: instruction (0 BYPASS, 1 SAMPLE/PRELOAD, 2 EXTEST), boundary-scan chain, and what EXTEST drives (R480) -/
  jtag : Nat := 0
  scan : List Bool := []
  driven : List Bool := []
  deriving DecidableEq, Repr


/-- Something the module does that the outside can see: a frame sent, a memory write or read request to the host, a
packet on a Rigging port, an interrupt message, a completion to a requester, a pin. Newest first in `State.out`. -/
inductive Out where
  | frame (port : Nat) (bytes : List Byte) (fcs : Nat)
  /-- a write of host memory; bit u of `ep` when its unit u carries poison and goes in a TLP with EP set (R418) -/
  | hostWrite (addr : Nat) (data : List Byte) (ep : Nat := 0)
  | hostRead (addr len : Nat)
  | packet (port : Nat) (p : Pkt) (wire : List Byte)
  | linkCtl (port : Nat) (opcode aux : Nat)
  | msix (vector : Nat)
  | completion (source : Nat) (status : Nat) (data : List Byte)
  | offload (die : Nat) (key : Nat)
  | attest (port : Nat) (kind : Nat) (bytes : List Byte)
  | smbus (data : List Byte)
  /-- what the boundary-scan chain shifts out (R480) -/
  | jtag (bits : List Bool)
  /-- the state record, sent to another module for the address of its copy (R391); the spec gives its bytes no layout -/
  | stateRecord (addr : Nat) (record : StateRecord)
  /-- the notice to the crow's nest that a checkpoint's copies are complete (R391); the spec gives it no form -/
  | notify (epoch : Nat)
  deriving DecidableEq, Repr

/-- One CK_MGMT cycle of an events register (R485, R486): what the register held at its start, the bits written with 1 in
it, the bits hardware sets in it, and those that events of another clock set in the next.
Assumption log 4 (DESIGN CHOICE). -/
structure EvCycle where
  cycle : Nat
  start : W64
  wrote : W64 := 0
  hw : W64 := 0
  late : W64 := 0
  deriving DecidableEq, Repr

/-- Interrupt delivery: the MSI-X vectors asserted, pending and masked, and ALERT_N (R491 to R493).
Assumption log 8 (PRESUMED). -/
structure Irq where
  asserted : Nat := 0
  pending : Nat := 0
  /-- MSI-X per-vector masks and the function mask -/
  masked : Nat := 2 ^ 64 - 1
  funcMask : Bool := false
  alertLow : Bool := false
  deriving DecidableEq, Repr


/-- The machine. -/
structure State where
  /-- commands waiting, first in, first out -/
  pending : List Instr := []
  /-- CK_NET cycles since reset; the model's own clock -/
  now : Nat := 0
  /-- how many free values the machine has taken (the model's own; Config.random and Config.freeByte are applied to it) -/
  freeCtr : Nat := 0
  /-- control-space registers that differ from `regReset`, by offset -/
  regs : List (Nat × W64) := []
  /-- the last CK_MGMT cycle in which an events register was set or written, by offset (R485, R486) -/
  evt : List (Nat × EvCycle) := []
  /-- upper words latched by 4-byte reads (R6), keyed by SOURCE * 2^28 + register offset -/
  upper : List (Nat × W32) := []
  /-- HBM bytes that differ from zero, by module-local offset -/
  hbm : List Host.Cell := []
  /-- poison marks on 64-byte units of HBM (R239), by unit number -/
  hbmPoison : List (Nat × Bool) := []
  /-- what left the module, newest first -/
  out : List Out := []
  ptp : Ptp := {}
  eth : List (Nat × EthPort) := []
  rings : List (Nat × RingEng) := []
  hly : Hly := {}
  cut : Cut := {}
  teu : Teu := {}
  /-- the Holds, by die * 32768 + set; the bytes they hold are those of `hbm` -/
  hold : List (Nat × HoldSet) := []
  grid : Grid := {}
  job : Jobs := {}
  rig : Rig := {}
  recov : Rec := {}
  boot : Boot := {}
  pwr : Pwr := {}
  irq : Irq := {}
  deriving DecidableEq, Repr

/-- The machine right after reset: every register at its reset value (R9), every table empty, nothing waiting. -/
def State.reset : State := {}

end Sys2Proof.Machine
end

