-- ==== Sys2Proof/Machine/Ops.lean ====
section
/-! DEFINITION. The named operations on the state: control-space registers and their fields, counters, HBM and its
poison marks, and what the module sends out. -/

namespace Sys2Proof.Machine

/-- Whether an offset from a register's first instance is one of its instances. -/
def dimsMatch : Nat → List (Nat × Nat) → Bool
  | r, [] => r == 0
  | r, (st, c) :: t => decide (r / st < c) && dimsMatch (r % st) t

/-- The row of the register that begins at a control-space offset. -/
def findReg (off : Nat) : Option RegDesc :=
  regTable.find? fun r => decide (r.base ≤ off) && dimsMatch (off - r.base) r.dims

/-- The four QNT windows are one register set, and the sixteen PTP copies one clock (R76, ch. 11): every such offset is
taken to its first window. -/
def canonOff (off : Nat) : Nat :=
  if 0x2000000 ≤ off ∧ off < 0x6000000 ∧ 0xF00000 ≤ off % 0x1000000 then 0x2F00000 + off % 0x100000
  else if 0x400000 ≤ off ∧ off < 0x500000 ∧ 0x400 ≤ off % 0x10000 ∧ off % 0x10000 < 0x418 then
    0x400000 + off % 0x10000
  else off

/-- Reset value of the register at an offset (R9): the Reset column; 0 in cfg fields before an image is loaded; CLASS
RX and PORT n in rings 0 to 15 (Table 3.10). Assumption log 12 (DEDUCED). -/
def regReset (off : Nat) : W64 :=
  if 0x800000 ≤ off ∧ off < 0x800400 ∧ off % 0x40 = 8 then
    BitVec.ofNat 64 (0x10000600 + ((off - 0x800000) / 0x40) * 0x1000000)
  else match resetRows.find? fun r => decide (r.base ≤ off) && dimsMatch (off - r.base) r.dims with
    | some r => BitVec.ofNat 64 r.reset
    | none => 0

/-- The register at an offset. -/
def State.rd (s : State) (off : Nat) : W64 := tget regReset s.regs off

/-- Sets the register at an offset. -/
def State.wr (s : State) (off : Nat) (v : W64) : State := { s with regs := tset regReset s.regs off v }

/-- Sets a register to a number. -/
def State.wrN (s : State) (off n : Nat) : State := s.wr off (BitVec.ofNat 64 n)

/-- A field of a register. -/
def State.gf (s : State) (f : Fld) : Nat := getBits (s.rd f.off) f.lo f.width

/-- A one-bit field. -/
def State.flag (s : State) (f : Fld) : Bool := s.gf f != 0

/-- Sets a field of a register. -/
def State.sf (s : State) (f : Fld) (n : Nat) : State := s.wr f.off (setBits (s.rd f.off) f.lo f.width n)

/-- Adds to a wrapping counter of `w` bits. -/
def State.addCtr (s : State) (w off k : Nat) : State := s.wrN off (((s.rd off).toNat + k) % 2 ^ w)

/-- Adds 1 to a 48-bit block counter (R495). -/
def State.cnt (s : State) (off : Nat) : State := s.addCtr 48 off 1

/-- Sends something out. Assumption log 17 (DESIGN CHOICE), 138 (DESIGN CHOICE). -/
def State.emit (s : State) (o : Out) : State := { s with out := o :: s.out }

/-- Draws from the random source. -/
def State.random (s : State) (w : Nat) : Nat × State := (Config.random s.freeCtr % 2 ^ w, { s with freeCtr := s.freeCtr + 1 })

/-! ### HBM -/

/-- What an HBM byte that nothing has written reads as: zero (R452 zero-fills every stack before service).
Assumption log 11 (DESIGN CHOICE). -/
def hbmDefault : Nat → BitVec 8 := fun _ => 0

/-- The canonical form of the HBM contents. -/
def Memory.wf (m : List Host.Cell) : Bool := twf hbmDefault m

/-- Default of a table of marks. -/
def noMark : Nat → Bool := fun _ => false

/-- One byte of HBM. -/
def State.hbmByte (s : State) (a : Nat) : Byte := tget hbmDefault s.hbm a

/-- `n` bytes of HBM. -/
def State.hbmRead (s : State) (a n : Nat) : List Byte := (List.range n).map fun i => s.hbmByte (a + i)

/-- Writes bytes into a cell list. -/
def cellsWrite : List Host.Cell → Nat → List Byte → List Host.Cell
  | m, _, [] => m
  | m, a, b :: t => cellsWrite (tset hbmDefault m a b) (a + 1) t

/-- Whether any 64-byte unit that `n` bytes at `a` touch is marked with poison. -/
def State.hbmPoisoned (s : State) (a n : Nat) : Bool :=
  (List.range ((a + n - 1) / 64 + 1 - a / 64)).any fun i => tget noMark s.hbmPoison (a / 64 + i)

/-- The POISON bits of a read of `n` bytes at `a`: bit u covers bytes 64u to 64u+63 of the read (R330). -/
def State.hbmPoisonBits (s : State) (a n : Nat) : Nat :=
  (List.range (cdiv n 64)).foldl (fun acc u =>
    if s.hbmPoisoned (a + 64 * u) (min 64 (n - 64 * u)) then acc + 2 ^ u else acc) 0

/-- The marks after a write of `n` bytes at `a` whose POISON bits are `pz` (R330, R239): a unit touched by poisoned
bytes is marked; a unit wholly covered by clean bytes loses its mark. -/
def poisonAfter (marks : List (Nat × Bool)) (a n pz : Nat) : List (Nat × Bool) :=
  (List.range ((a + n - 1) / 64 + 1 - a / 64)).foldl (fun m i =>
    let u := a / 64 + i
    let bad := (List.range (cdiv n 64)).any fun j =>
      pz.testBit j && decide (a + 64 * j < 64 * u + 64) && decide (64 * u < min (a + 64 * j + 64) (a + n))
    if bad then tset noMark m u true
    else if a ≤ 64 * u ∧ 64 * u + 64 ≤ a + n then tset noMark m u false
    else m) marks

/-- Writes bytes into HBM with the POISON bits of a payload. -/
def State.hbmWrite (s : State) (a : Nat) (d : List Byte) (pz : Nat := 0) : State :=
  if d.isEmpty then s else
    { s with hbm := cellsWrite s.hbm a d, hbmPoison := poisonAfter s.hbmPoison a d.length pz }

/-- Bytes of HBM that the spec leaves undefined take free values; marks of poison stay (R352).
Assumption log 141 (DESIGN CHOICE). -/
def State.hbmOpen (s : State) (a n : Nat) : State :=
  { s with
    hbm := cellsWrite s.hbm a ((List.range n).map fun i => Config.freeByte (s.freeCtr + i)), freeCtr := s.freeCtr + n }

/-! ### Tables of engines -/

/-- One Ethernet port's engine. -/
def State.ethPort (s : State) (p : Nat) : EthPort := tget (fun _ => {}) s.eth p
/-- Changes one Ethernet port's engine. -/
def State.modEth (s : State) (p : Nat) (f : EthPort → EthPort) : State :=
  { s with eth := tmod (fun _ => {}) s.eth p f }
/-- One ring's engine. -/
def State.ring (s : State) (n : Nat) : RingEng := tget (fun _ => {}) s.rings n
/-- Changes one ring's engine. -/
def State.modRing (s : State) (n : Nat) (f : RingEng → RingEng) : State :=
  { s with rings := tmod (fun _ => {}) s.rings n f }

/-- The feedback divider N in force (R23): 80 before it is set. -/
def State.divN (s : State) : Nat := s.gf F.CLK_STATUS_N

/-- CK_NET cycles in one CK_MGMT, CK_MEM, CK_ARITH and CK_TICK cycle are 8, 4, 2 and 32 (R10, R23). -/
def tickNet : Nat := 32

/-- CK_NET cycles in `ms` milliseconds at divider N (CK_NET runs at 25 N MHz). Assumption log 3 (DESIGN CHOICE). -/
def State.msNet (s : State) (ms : Nat) : Nat := ms * 25000 * s.divN

/-- A slot becomes FAULTED (R160): it holds no model that serves, so LOADED and PASSES read 0 (Table 5.22). -/
def State.setFaulted (s : State) (m : Nat) : State :=
  ((s.sf (F.SLOT_STATUS_FAULTED m) 1).sf (F.SLOT_STATUS_LOADED m) 0).sf (F.SLOT_STATUS_PASSES m) 0

/-- The module's own number (R28). -/
def State.modnum (s : State) : Nat := s.gf F.MODULE_NUMBER_MODNUM

end Sys2Proof.Machine
end

