-- ==== Sys2Proof/Machine/Flags.lean ====
section
/-! DEFINITION. Sticky event bits and their re-occurrence counters (R485 to R488), the module summary (R489, R490),
MSI-X and ALERT_N (R491 to R493). These are the block's flags. -/

namespace Sys2Proof.Machine

/-- The re-occurrence counter of an events register (Table 19.8): HALF_STATUS at + 0x10, DECODE_ERR none (R494), every
other at + 0x4. -/
def reoccOf (off : Nat) : Option Nat :=
  if off = R.DECODE_ERR then none
  else if 0x600000 ≤ off ∧ off < 0x700000 then some (off + 0x10)
  else some (off + 4)

/-- Whether CK_MGMT clocks the event: those of the control space, the management core and the security engine (Table 1.6),
and IDX_ERR of a ring, which the write of SW_IDX itself raises (R82). Assumption log 4 (DESIGN CHOICE). -/
def mgmtClocked (off mask : Nat) : Bool :=
  decide (off = R.DECODE_ERR ∨ off = R.BOOT_EVENTS ∨ off = R.SEC_EVENTS ∨ off = R.AGE_EVENTS ∨ off = R.PWR_EVENTS) ||
  (decide (0x800000 ≤ off ∧ off < 0xC00000 ∧ off % 0x40 = 0x24) && decide (mask = 2 ^ (F.RING_STATUS_IDX_ERR 0).lo))

/-- What the register holds at the end of the cycle: a set wins over a clear (R485).
Assumption log 4 (DESIGN CHOICE). -/
def EvCycle.atEnd (e : EvCycle) : W64 := e.start &&& ~~~ e.wrote ||| e.hw

/-- The next cycle. Assumption log 4 (DESIGN CHOICE). -/
def EvCycle.next (e : EvCycle) : EvCycle := { cycle := e.cycle + 1, start := e.atEnd, hw := e.late }

/-- The re-occurrences that the cycle and the next count (R486): one in a cycle in which hardware sets a bit that was 1 at
its start or that a write of 1 reaches in it. Assumption log 4 (DESIGN CHOICE). -/
def EvCycle.reoccs (e : EvCycle) : Nat :=
  (if e.hw &&& (e.start ||| e.wrote) = 0 then 0 else 1) + (if e.late &&& e.atEnd = 0 then 0 else 1)

/-- The present CK_MGMT cycle of an events register; a CK_MGMT cycle is 8 CK_NET cycles.
Assumption log 4 (DESIGN CHOICE). -/
def State.evCycle (s : State) (off : Nat) : EvCycle :=
  match tfind off s.evt with
  | some e =>
    if e.cycle = s.now / 8 then e
    else if e.cycle + 1 = s.now / 8 then e.next
    else { cycle := s.now / 8, start := s.rd off }
  | none => { cycle := s.now / 8, start := s.rd off }

/-- The present cycle of an events register becomes `e`, and its re-occurrence counter follows (R486).
Assumption log 4 (DESIGN CHOICE). -/
def State.setCycle (s : State) (off : Nat) (e : EvCycle) : State :=
  let d := (2 ^ 32 + e.reoccs - (s.evCycle off).reoccs) % 2 ^ 32
  let s1 : State := match reoccOf off with
    | some r => if d = 0 then s else s.addCtr 32 r d
    | none => s
  { s1 with evt := tins off e s1.evt }

/-- Hardware sets bits of an events register: the set reaches the register in the present CK_MGMT cycle where CK_MGMT clocks
it, and in the next where the event is carried from another clock (R485). The register shows the bits at once.
Assumption log 4 (DESIGN CHOICE). -/
def State.setBitsHw (s : State) (off mask : Nat) : State :=
  let m := BitVec.ofNat 64 mask
  let e := s.evCycle off
  (s.setCycle off (if mgmtClocked off mask then { e with hw := e.hw ||| m } else { e with late := e.late ||| m })).wr off
    (s.rd off ||| m)

/-- Whether an offset is a Rigging PORT_EVENTS register. -/
def isRigPortEvents (off : Nat) : Bool :=
  decide (0x6001000 ≤ off) && decide (off < 0x6003000) && decide (off % 0x100 = 8)

/-- Hardware sets bits of an events register; a bit of a Rigging PORT_EVENTS register sets PORT_EVENT too (R494). -/
def State.raiseMask (s : State) (off mask : Nat) : State :=
  let s1 := s.setBitsHw off mask
  if isRigPortEvents off && mask != 0 then s1.setBitsHw R.RIG_EVENTS (2 ^ F.RIG_EVENTS_PORT_EVENT.lo) else s1

/-- Hardware sets one event. -/
def State.raise (s : State) (f : Fld) : State := s.raiseMask f.off (2 ^ f.lo)

/-- Path code errors met (R414), each with whether it was uncorrectable: one bit is corrected and counted in PATH_CORR, two
are counted in PATH_UNCORR and set it. Assumption log 137 (DEDUCED). -/
def State.pathErrs (s : State) (es : List Bool) : State :=
  es.foldl (fun s e => if e then (s.cnt (R.SEC_COUNT 1)).raise F.SEC_EVENTS_PATH_UNCORR else s.cnt (R.SEC_COUNT 0)) s

/-- Sets an event and adds 1 to its block counter. -/
def State.note (s : State) (f : Fld) (ctr : Nat) : State := (s.cnt ctr).raise f

/-- A W1C write of `v` to an events register, in whose CK_MGMT cycle hardware sets the bits `hw` too (R485, R486): a bit
that hardware sets in that cycle, or in the next, is 1 after it. Assumption log 4 (DESIGN CHOICE). -/
def State.clearEvents (s : State) (off v hw : Nat) : State :=
  let old := s.rd off
  let w := BitVec.ofNat 64 v
  let h := BitVec.ofNat 64 hw
  let e := s.evCycle off
  (s.setCycle off { e with wrote := e.wrote ||| w, hw := e.hw ||| h }).wr off
    (old &&& ~~~ w ||| old &&& (e.hw ||| e.late) ||| h)

/-- Whether any register of a list of offsets is not zero. -/
def State.anySet (s : State) (offs : List Nat) : Bool := offs.any fun o => s.rd o != 0

/-- Whether a ring is pending (R490). -/
def State.ringPending (s : State) (n : Nat) : Bool :=
  (s.flag (F.RING_STATUS_COMPLETION n) && s.flag (F.RING_IRQ_CTRL_IRQ_EN n)) ||
  s.flag (F.RING_STATUS_IDX_ERR n) || s.flag (F.RING_STATUS_FETCH_ERR n) ||
  s.flag (F.RING_STATUS_DESC_ERR n) || s.flag (F.RING_STATUS_NOBUF n)

/-- The rings whose RING_STATUS is not zero. -/
def State.ringsSet (s : State) : List Nat :=
  s.regs.filterMap fun e =>
    if 0x800000 ≤ e.1 ∧ e.1 < 0xC00000 ∧ e.1 % 0x40 = 0x24 then some ((e.1 - 0x800000) / 0x40) else none

/-- The rings that are pending. -/
def State.pendingRings (s : State) : List Nat := s.ringsSet.filter s.ringPending

/-- RING_PENDING[w] (R490). -/
def State.ringPendingWord (s : State) (w : Nat) : Nat :=
  s.pendingRings.foldl (fun a n => if n / 64 = w then a ||| 2 ^ (n % 64) else a) 0

/-- Source condition of one SUMMARY bit (Table 19.2). -/
def State.summaryBit (s : State) (k : Nat) : Bool :=
  match k with
  | 0 => s.rd R.DECODE_ERR != 0
  | 1 => s.rd R.BOOT_EVENTS != 0
  | 2 => s.rd R.SEC_EVENTS != 0
  | 3 => s.rd R.AGE_EVENTS != 0
  | 4 => s.rd R.PWR_EVENTS != 0
  | 5 => s.rd R.HLY_EVENTS != 0
  | 6 => s.rd R.TEU_EVENTS != 0
  | 7 => s.rd R.CUT_EVENTS != 0
  | 8 => s.rd R.JOB_EVENTS != 0
  | 9 => s.rd R.QNT_EVENTS != 0
  | 10 => s.rd R.RIG_EVENTS != 0
  | 11 => s.rd R.REC_EVENTS != 0
  | k =>
    if k < 16 then s.rd (R.GRID_EVENTS (k - 12)) != 0
    else if k < 20 then s.rd (R.MEM_EVENTS (k - 16)) != 0
    else if k = 20 then !s.pendingRings.isEmpty
    else if k < 32 then false
    else if k < 48 then
      s.rd (R.ETH_PORT_EVENTS (k - 32)) != 0 ||
      (s.rd (R.ETH_HALF_STATUS (k - 32)) &&& s.rd (R.ETH_HALF_ENABLE (k - 32))) != 0
    else false

/-- SUMMARY (R489): it holds no state of its own. -/
def State.summary (s : State) : Nat :=
  (List.range 48).foldl (fun a k => if s.summaryBit k then a + 2 ^ k else a) 0

/-- The vectors asserted (R491). -/
def State.vectors (s : State) : Nat :=
  let a := s.summary &&& (s.rd R.GL_SUMMARY_ENABLE).toNat &&& 0xFFFF000FFFFF
  s.pendingRings.foldl (fun v n => if s.flag (F.RING_IRQ_CTRL_IRQ_EN n) then v ||| 2 ^ (48 + n % 16) else v) a

/-- Messages due: a vector newly asserted, or still asserted after a W1C write to one of its sources (R492).
Assumption log 6 (DEDUCED). -/
def vecDue (was asserted cleared : Nat) : List Nat :=
  (List.range 64).filter fun k => asserted.testBit k && (!was.testBit k || cleared.testBit k)

/-- Sends or holds the message of one vector (R492). -/
def State.signal (s : State) (k : Nat) : State :=
  if s.irq.funcMask || s.irq.masked.testBit k then
    { s with irq := { s.irq with pending := s.irq.pending ||| 2 ^ k } }
  else s.emit (.msix k)

/-- After every command: the vectors and ALERT_N follow the registers (R491 to R493). `cleared` holds the vectors one
of whose source registers a W1C write reached. ALERT_N is driven from step 4 of the start on.
Assumption log 5 (DEDUCED), 6 (DEDUCED), 133 (DEDUCED). -/
def State.settle (s : State) (cleared : Nat := 0) : State :=
  let v := s.vectors
  let s1 := (vecDue s.irq.asserted v cleared).foldl (fun s k => s.signal k) s
  let alert := (s.summary &&& (s.rd R.GL_ALERT_MASK).toNat) != 0 && decide (4 ≤ s.gf F.BOOT_STATUS_STEP)
  { s1 with irq := { s1.irq with asserted := v, pending := s1.irq.pending &&& v, alertLow := alert } }

/-- The vectors an events register is a source of (R491, Table 19.2). -/
def vectorsOf (off : Nat) : Nat :=
  if off = R.DECODE_ERR then 1
  else if 0x800000 ≤ off ∧ off < 0xC00000 then 2 ^ (48 + ((off - 0x800000) / 0x40) % 16)
  else if 0x400000 ≤ off ∧ off < 0x500000 then 2 ^ (32 + (off - 0x400000) / 0x10000)
  else if 0x600000 ≤ off ∧ off < 0x700000 then 2 ^ (32 + (off - 0x600000) / 0x1000)
  else if off = R.BOOT_EVENTS then 2 ^ 1
  else if off = R.SEC_EVENTS then 2 ^ 2
  else if off = R.AGE_EVENTS then 2 ^ 3
  else if off = R.PWR_EVENTS then 2 ^ 4
  else if off = R.HLY_EVENTS then 2 ^ 5
  else if off = R.TEU_EVENTS then 2 ^ 6
  else if off = R.CUT_EVENTS then 2 ^ 7
  else if off = R.JOB_EVENTS then 2 ^ 8
  else if off = R.QNT_EVENTS then 2 ^ 9
  else if off = R.RIG_EVENTS then 2 ^ 10
  else if off = R.REC_EVENTS then 2 ^ 11
  else if 0x2000000 ≤ off ∧ off < 0x6000000 then 2 ^ (12 + (off - 0x2000000) / 0x1000000)
  else if 0x8000000 ≤ off ∧ off < 0x9000000 then 2 ^ (16 + (off - 0x8000000) / 0x400000)
  else 0

end Sys2Proof.Machine
end

