-- ==== Sys2Proof/Machine/Operands.lean ====
section
/-! DEFINITION. Operand forms: what a global address names (R28 to R32), the two-target address of rings and loads
(R78), the parts a control-space access is served in (R6, R496), and the refusals of R33 to R38. -/

namespace Sys2Proof.Machine

/-- What a module-local offset names (Table 1.8, R32). -/
inductive Place where
  | hbm (off : Nat)
  | site (die row col off : Nat)
  | ctl (off : Nat)
  | unmapped
  deriving DecidableEq, Repr

/-- R30, R32: the place of a 44-bit module-local offset. -/
def placeOf (off : Nat) : Place :=
  if off < 0x9000000000 then .hbm off
  else if 0xC0000000000 ≤ off ∧ off < 0xC0200000000 then
    let w := off - 0xC0000000000
    let die := w / 0x80000000
    let site := (w % 0x80000000) / 0x100000
    let row := site / 64
    let col := site % 64
    let o := w % 0x100000
    if col ≥ 48 then .unmapped
    else if col % 3 = 2 then (if o < 0x80000 then .site die row col o else .unmapped)
    else if o < 0x40000 then .site die row col o else .unmapped
  else if 0xF0000000000 ≤ off ∧ off < 0xF0010000000 then .ctl (off - 0xF0000000000)
  else .unmapped

/-- Module number of a global address (R28). -/
def gModule (a : Nat) : Nat := bits a 44 12
/-- Module-local offset of a global address. -/
def gOff (a : Nat) : Nat := a % 2 ^ 44
/-- A global address. -/
def gAddr (m off : Nat) : Nat := m * 2 ^ 44 + off % 2 ^ 44

/-- R31: the C-die an HBM offset lies on. -/
def hbmDie (off : Nat) : Nat := off / 0x2400000000
/-- R31: the stack an HBM offset lies in. -/
def hbmStack (off : Nat) : Nat := 2 * hbmDie off + bits (off % 0x2400000000) 12 1
/-- R31: the address inside the stack. -/
def hbmStackAddr (off : Nat) : Nat :=
  let d := off % 0x2400000000
  (d >>> 13) * 0x1000 + d % 0x1000

/-- The target of a 64-bit ring, buffer or image address (R78): bit 63 clear is host memory, set a global address. -/
inductive Target where
  | host (a : Nat)
  | global (a : Nat)
  deriving DecidableEq, Repr

/-- R78. -/
def target (a : Nat) : Target := if a.testBit 63 then .global (a % 2 ^ 56) else .host (a % 2 ^ 63)

/-- SOURCE of a requester (Table 1.19). -/
def srcCode : Src → Nat
  | .mgmt => 0
  | .pcie => 1
  | .rigging _ => 2
  | .bowsprit => 3
  | .strand d => 4 + d.val

/-- The latch a requester uses (R6, R76): every other module shares the Rigging requester's. -/
def latchOf : Src → Nat := srcCode

/-- Address-decode outcomes and Rigging STATUS values (Tables 1.10, 12.6). -/
abbrev stOk : Nat := 0
abbrev stUnmapped : Nat := 1
abbrev stDenied : Nat := 2
abbrev stMisaligned : Nat := 3
abbrev stPoisoned : Nat := 4
abbrev stE2e : Nat := 5
abbrev stNotAtomic : Nat := 6
abbrev stDbFull : Nat := 7
abbrev stRedBusy : Nat := 8
abbrev stRedStale : Nat := 9
abbrev stRedDup : Nat := 10
abbrev stRedUnknown : Nat := 11
abbrev stUnreachable : Nat := 0xFD
abbrev stLinkLost : Nat := 0xFE
abbrev stTimeout : Nat := 0xFF

/-- A refused access (R36, R38): the cause bit sets, the first refusal while all four bits are clear is captured, and
every refusal is counted. `cause` is the bit of DECODE_ERR. -/
def State.decodeRefuse (s : State) (src cause addr : Nat) : State :=
  let s1 :=
    if s.rd R.DECODE_ERR = 0 then
      (s.wrN R.DECODE_ERR_ADDR (addr % 2 ^ 56)).sf F.DECODE_ERR_ADDR_SOURCE src
    else s
  (s1.raiseMask R.DECODE_ERR (2 ^ cause)).addCtr 32 R.DECODE_ERR_COUNT 1

/-- Bits of DECODE_ERR (Table 1.17). -/
abbrev deUnmapped : Nat := 0
abbrev deWindow : Nat := 1
abbrev deStrand : Nat := 2
abbrev deCtrl : Nat := 3

/-- The remote-control mask bit of a control-space offset (Table 12.17), none for the reserved ranges (R33). -/
def ctlBlock (off : Nat) : Option Nat :=
  if off < 0x100000 then some 0
  else if off < 0x200000 then some 1
  else if off < 0x300000 then some 2
  else if off < 0x400000 then some 3
  else if off < 0x500000 then some 4
  else if off < 0x600000 then none
  else if off < 0x700000 then some 5
  else if off < 0x800000 then some 6
  else if off < 0xC00000 then some 7
  else if off < 0xD00000 then some 8
  else if off < 0xE00000 then some 9
  else if off < 0xF00000 then some 10
  else if off < 0x1000000 then some 11
  else if off < 0x2000000 then some 12
  else if off < 0x6000000 then some 13
  else if off < 0x7000000 then some 14
  else if off < 0x8000000 then some 15
  else if off < 0x9000000 then some 16
  else none

/-- Whether R33 refuses a control-space access of a requester: none when it is permitted, else the DECODE_ERR bit. -/
def State.ctlRefused (s : State) (src : Src) (off : Nat) (isWrite : Bool) : Option Nat :=
  match src with
  | .mgmt => none
  | .pcie => none
  | .bowsprit => some deStrand
  | .strand _ => some deStrand
  | .rigging _ =>
    if isWrite then
      match ctlBlock off with
      | some b => if (s.gf F.RIG_REMOTE_CTRL_MASK_BLOCKS).testBit b then none else some deCtrl
      | none => some deCtrl
    else none

/-- One part of a control-space access (R6, R496): its offset, its length, and whether it has an effect (a whole aligned
8-byte group, or one aligned 4-byte half). -/
structure Part where
  off : Nat
  len : Nat
  live : Bool
  deriving DecidableEq, Repr

/-- R496: an access is divided at every 8-byte boundary of its offset. -/
def partsOf : Nat → Nat → Nat → List Part
  | 0, _, _ => []
  | fuel + 1, off, len =>
    if len = 0 then [] else
      let n := min len (8 - off % 8)
      ⟨off, n, n = 8 || (n = 4 && off % 4 = 0)⟩ :: partsOf fuel (off + n) (len - n)

/-- The parts of an access of `len` bytes; an access narrower than 4 bytes, or of 4 or 8 bytes not aligned to its own
size, has no effect (R6). -/
def accessParts (off len : Nat) : List Part :=
  if len < 4 ∨ (len = 4 ∧ off % 4 ≠ 0) ∨ (len = 8 ∧ off % 8 ≠ 0) then [⟨off, len, false⟩]
  else partsOf (len + 1) off len

end Sys2Proof.Machine
end

