-- ==== Sys2Proof/Machine/Plan.lean ====
section
/-! DEFINITION. The plan format (R367 to R370): instruction fields, the sections of a plan image, the checks of a
PLAN_LOAD, the walks of R244 and the step order of R260 and R266. -/

namespace Sys2Proof.Machine

/-! ### Instructions -/

/-- Opcodes (Table 13.5). -/
abbrev ocNop : Nat := 0x00
abbrev ocEnd : Nat := 0x01
abbrev ocLoop : Nat := 0x02
abbrev ocSend : Nat := 0x10
abbrev ocAwait : Nat := 0x11
abbrev ocSetac : Nat := 0x12
abbrev ocFurl : Nat := 0x13
abbrev ocUnfurl : Nat := 0x14
abbrev ocCset : Nat := 0x15
abbrev ocVec : Nat := 0x16
abbrev ocMatmul : Nat := 0x20
abbrev ocRescale : Nat := 0x21
abbrev ocDma : Nat := 0x30

/-- W of Table 13.5; 0 for a reserved opcode. -/
def ocWords (o : Nat) : Nat :=
  if o = ocNop ∨ o = ocEnd ∨ o = ocLoop ∨ (ocAwait ≤ o ∧ o ≤ ocVec) then 1
  else if o = ocSend ∨ o = ocRescale then 2
  else if o = ocMatmul then 6
  else if o = ocDma then 5
  else 0

/-- Bits used after OPCODE in the first W words of an instruction, before the bits R368 keeps 0; a DMA instruction's
word 0 only. -/
def ocUsed (o : Nat) : Nat :=
  if o = ocLoop then 31
  else if o = ocSend then 63
  else if o = ocAwait ∨ o = ocSetac then 34
  else if o = ocFurl ∨ o = ocUnfurl then 16
  else if o = ocCset then 42
  else if o = ocVec then 43
  else if o = ocMatmul then 361
  else if o = ocRescale then 68
  else if o = ocDma then 37
  else 0

/-- An instruction: its words, the count of them, and their 64W-bit value with word 0 most significant (R368). -/
structure Ins where
  n : Nat
  v : Nat
  deriving DecidableEq, Repr

/-- The value of a list of words, first most significant. -/
def wordsVal (ws : List W64) : Nat := ws.foldl (fun a w => a * 2 ^ 64 + w.toNat) 0

/-- OPCODE of a word. -/
def opcodeOf (w : W64) : Nat := w.toNat / 2 ^ 56

/-- The instruction at a code word (R368); none past the end of the code or at a reserved opcode. -/
def insAt (code : List W64) (pc : Nat) : Option Ins :=
  match code[pc]? with
  | none => none
  | some w =>
    let k := ocWords (opcodeOf w)
    if k = 0 ∨ code.length < pc + k then none else some ⟨k, wordsVal ((code.drop pc).take k)⟩

/-- The opcode of an instruction. -/
def Ins.op (i : Ins) : Nat := bits i.v (64 * i.n - 8) 8

/-- The field that begins `skip` bits after OPCODE and is `w` bits wide (R368). -/
def Ins.f (i : Ins) (skip w : Nat) : Nat := bits i.v (64 * i.n - 8 - skip - w) w

/-- Whether a BIND value is not reserved (Table 9.5). -/
def bindOk (b : Nat) : Bool := b = 0 || 4 ≤ b

/-- Whether an instruction has a reserved value in a field, or a one in the low bits R368 keeps 0 (Tables 9.2, 9.4,
10.6, 10.10, 13.5). Assumption log 60 (DEDUCED). -/
def Ins.reserved (i : Ins) : Bool :=
  let o := i.op
  (if o = ocDma then bits i.v (64 * 4) (56 - ocUsed o) != 0
   else bits i.v 0 (64 * i.n - 8 - ocUsed o) != 0) ||
  (if o = ocLoop then !bindOk (i.f 16 3)
   else if o = ocSend then decide (8 < i.f 13 4)
   else if o = ocVec then decide (3 < i.f 0 4)
   else if o = ocMatmul then
     i.f 0 2 = 3 || i.f 2 2 = 3 || decide (4 < i.f 4 4) || decide (4 < i.f 8 4) ||
     (i.f 0 2 = 1 && i.f 4 4 != fmBf16) || (i.f 2 2 = 1 && i.f 8 4 != fmBf16) ||
     (decide (0x40 ≤ i.f 116 8) && i.f 116 8 != 0xFF) || (decide (0x40 ≤ i.f 124 8) && i.f 124 8 != 0xFF) ||
     !bindOk (i.f 184 3) || !bindOk (i.f 187 3) || !bindOk (i.f 190 3) || !bindOk (i.f 193 3) ||
     (i.f 184 3 = 0 && i.f 132 12 = 0) || (i.f 187 3 = 0 && i.f 144 12 = 0) || (i.f 190 3 = 0 && i.f 156 12 = 0) ||
     (i.f 193 3 = 0 && i.f 168 16 = 0) ||
     decide (32 < i.f 196 6) || i.f 202 2 = 3 || (i.f 202 2 = 0 && i.f 204 8 != 0) ||
     (i.f 202 2 != 0 && (i.f 212 2 = 3 || i.f 290 2 = 3 || decide (16 * i.f 204 8 < i.f 266 12))) ||
     i.f 344 2 = 3 || i.f 351 6 = 0 || decide (32 < i.f 351 6)
   else if o = ocRescale then decide (4 < i.f 21 4) || !bindOk (i.f 62 3) || !bindOk (i.f 65 3)
   else false)

/-- The instructions of a code store, in order (a code store is read as packed). -/
def insList : Nat → List W64 → Nat → List (Option Ins)
  | 0, _, _ => []
  | fuel + 1, code, pc =>
    if code.length ≤ pc then []
    else match insAt code pc with
      | none => [none]
      | some i => some i :: insList fuel code (pc + i.n)

/-- The number of instructions from word `start` to word `pc`: the index of R220's FAULT_PC. -/
def insIndex : Nat → List W64 → Nat → Nat → Nat
  | 0, _, _, _ => 0
  | fuel + 1, code, at_, pc =>
    if pc ≤ at_ then 0
    else match insAt code at_ with
      | none => 0
      | some i => insIndex fuel code (at_ + i.n) pc + 1

/-! ### The plan image -/

/-- A section directory entry (Table 13.3). -/
structure Sect where
  type : Nat
  variant : Nat
  bucket : Nat
  off : Nat
  len : Nat
  zero : Bool
  deriving DecidableEq, Repr

/-- The directory of an image. -/
def planSects (im : List Byte) : List Sect :=
  (List.range (leAt im 6 2)).map fun k =>
    let o := 64 + 16 * k
    ⟨leAt im o 2, leAt im (o + 2) 1, leAt im (o + 3) 1, leAt im (o + 4) 4, leAt im (o + 8) 4, leAt im (o + 12) 4 = 0⟩

/-- The bytes of the sections of one type. -/
def sectBytes (im : List Byte) (type : Nat) : List (List Byte) :=
  ((planSects im).filter fun k => k.type = type).map fun (k : Sect) => slice im k.off k.len

/-- FLAGS of the plan header. -/
def planFlags (im : List Byte) : Nat := leAt im 9 1
/-- N_SHARDS. -/
def planShards (im : List Byte) : Nat := leAt im 10 2 + 1
/-- OWNER. -/
def planOwner (im : List Byte) : Nat := leAt im 12 4
/-- N_DIMS. Assumption log 62 (DEDUCED). -/
def planDims (im : List Byte) : Nat := leAt im 16 1
/-- N_BUCKETS. -/
def planBuckets (im : List Byte) : Nat := leAt im 17 1
/-- SEQ_MASK. -/
def planSeqs (im : List Byte) : Nat := leAt im 18 1
/-- DIM_CLASS[d]: the class (0 M, 1 N, 2 K). -/
def dimClass (im : List Byte) (d : Nat) : Nat := leAt im (20 + d) 1 % 4
/-- DIM_CLASS[d]: CHUNKABLE. -/
def dimChunk (im : List Byte) (d : Nat) : Bool := (leAt im (20 + d) 1).testBit 2

/-- VALUE[d] of a bucket. -/
def bucketVal (im : List Byte) (b d : Nat) : Nat := leAt ((sectBytes im 1).headD []) (32 * b + 4 * d) 4
/-- The values of a bucket. -/
def bucketVals (im : List Byte) (b : Nat) : List Nat := (List.range (planDims im)).map (bucketVal im b)
/-- LAST_CYCLE of a bucket. -/
def bucketLast (im : List Byte) (b : Nat) : Nat := leAt ((sectBytes im 1).headD []) (32 * b + 16) 6

/-- A site number from a C-die, row and column, and from the SITE field of Table 13.4. -/
def siteOf (die row col : Nat) : Nat := die * 2048 + row * 64 + col
def siteField (v : Nat) : Nat := siteOf (bits v 14 2) (bits v 0 5) (bits v 8 6)
/-- C-die, row and column of a site number. -/
def siteDie (s : Nat) : Nat := s / 2048
def siteRow (s : Nat) : Nat := s % 2048 / 64
def siteCol (s : Nat) : Nat := s % 64
/-- Whether a site holds an M-tile (R14). -/
def isM (s : Nat) : Bool := siteCol s % 3 = 2
/-- The M-tile of a site's triad. -/
def triadM (s : Nat) : Nat := s - siteCol s % 3 + 2
/-- The site at a position of the triad. -/
def triadAt (s k : Nat) : Nat := s - siteCol s % 3 + k

/-- Whether a SITE field names a site: bits [7:5] 0 (Table 13.4), a column the grid has (R14).
Assumption log 142 (DEDUCED). -/
def siteGood (v : Nat) : Bool := bits v 5 3 = 0 && decide (bits v 8 6 < 48)

/-- A TILE_CODE record (Table 13.4). -/
structure TileRec where
  site : Nat
  period : Nat
  slots : List (Option Nat)
  strands : List (Nat × Nat)
  code : List W64
  /-- its site is one of the module's, and what the record keeps 0 is 0 -/
  good : Bool
  deriving DecidableEq, Repr

/-- The records of a TILE_CODE section. Assumption log 61 (DEDUCED). -/
def tileRecs : Nat → List Byte → List TileRec
  | 0, _ => []
  | fuel + 1, l =>
    if l.isEmpty then [] else
      let p := leAt l 2 2
      let n := leAt l 4 2
      let w := leAt l 8 4
      let so := 12 + 8 * cdiv (2 * p) 8
      let co := so + 8 * n
      let slots := (List.range p).map fun k =>
        let e := leAt l (12 + 2 * k) 2
        if e.testBit 15 then none else some (e % 256)
      let strands := (List.range n).map fun k => (leAt l (so + 8 * k) 2, leAt l (so + 8 * k + 4) 4)
      let code := (List.range w).map fun k => BitVec.ofNat 64 (leAt l (co + 8 * k) 8)
      ⟨siteField (leAt l 0 2), p, slots, strands, code, siteGood (leAt l 0 2) && leAt l 6 2 = 0⟩ ::
        tileRecs fuel (l.drop (co + 8 * w))

/-- The tile code of a variant and bucket. Assumption log 62 (DEDUCED). -/
def planTiles (im : List Byte) (variant bucket : Nat) : List TileRec :=
  ((planSects im).filter fun k => k.type = 2 ∧ k.variant = variant ∧ k.bucket = bucket).flatMap fun (k : Sect) =>
    tileRecs (k.len + 1) (slice im k.off k.len)

/-- Every tile record of the image. -/
def planAllTiles (im : List Byte) : List TileRec :=
  ((planSects im).filter fun k => k.type = 2).flatMap fun (k : Sect) => tileRecs (k.len + 1) (slice im k.off k.len)

/-- Whether a bucket has tile code for a variant. -/
def hasVariant (im : List Byte) (variant bucket : Nat) : Bool :=
  (planSects im).any fun k => k.type = 2 && k.variant = variant && k.bucket = bucket

/-- The sheet descriptors of a site: one SHEETS section a tile. Assumption log 61 (DEDUCED). -/
def planSheets (im : List Byte) (site : Nat) : List W64 :=
  ((sectBytes im 3).filter fun l => siteField (leAt l 0 2) = site).flatMap fun (l : List Byte) =>
    (List.range ((l.length - 2) / 8)).map fun k => BitVec.ofNat 64 (leAt l (2 + 8 * k) 8)

/-- The RESIDENT ranges (site, first row, row count) of a plan. -/
def planResidency (im : List Byte) : List (Nat × Nat × Nat) :=
  (sectBytes im 4).flatMap fun (l : List Byte) =>
    (List.range (l.length / 8)).map fun k =>
      (siteField (leAt l (8 * k) 2), leAt l (8 * k + 4) 2, leAt l (8 * k + 6) 2)

/-- The export mode of a site (R233). -/
def planExport (im : List Byte) (site : Nat) : Nat :=
  (((sectBytes im 5).flatMap fun (l : List Byte) =>
    (List.range (l.length / 4)).map fun k => (siteField (leAt l (4 * k) 2), leAt l (4 * k + 2) 1)).find?
      fun e => e.1 = site).map (·.2) |>.getD 0

/-- The reduction groups (R347): fields of 32-byte records, packed in the order the spec lists them.
Assumption log 62 (DEDUCED). -/
def planGroups (im : List Byte) : List (List Byte) :=
  (sectBytes im 6).flatMap fun (l : List Byte) => (List.range (l.length / 32)).map fun k => slice l (32 * k) 32

/-- The lists of a SIDE_LISTS section. -/
def sideLists : Nat → List Byte → List (List Nat)
  | 0, _ => []
  | fuel + 1, l =>
    if l.length < 2 then [] else
      let n := leAt l 0 2
      ((List.range n).map fun k => leAt l (2 + 2 * k) 2) :: sideLists fuel (l.drop (2 + 2 * n))

/-- Every side list of the image. -/
def planLists (im : List Byte) : List (List Nat) := (sectBytes im 7).flatMap fun l => sideLists (l.length + 1) l

/-- Whether a record of SHEETS, RESIDENCY or EXPORTS names no site of the module, a memory its site does not hold or an
export mode that is not given, or has a reserved byte that is not 0 (R367). Assumption log 142 (DEDUCED). -/
def planRecordBad (im : List Byte) : Bool :=
  (sectBytes im 3).any (fun l => !siteGood (leAt l 0 2)) ||
  (sectBytes im 4).any (fun l => (List.range (l.length / 8)).any fun k =>
    !siteGood (leAt l (8 * k) 2) || leAt l (8 * k + 2) 1 != (if isM (siteField (leAt l (8 * k) 2)) then 1 else 0) ||
    leAt l (8 * k + 3) 1 != 0) ||
  (sectBytes im 5).any (fun l => (List.range (l.length / 4)).any fun k =>
    !siteGood (leAt l (4 * k) 2) || leAt l (4 * k + 2) 1 = 0 || decide (2 < leAt l (4 * k + 2) 1) ||
    leAt l (4 * k + 3) 1 != 0)

/-- The matrix instructions of a tile record. -/
def TileRec.mats (t : TileRec) : List Ins :=
  (insList (t.code.length + 1) t.code 0).filterMap fun o => o.bind fun i => if i.op = ocMatmul then some i else none

/-- Whether a dimension is bound in the classes M (TM or BATCH), N, K, and to TM, TN or TK at all. -/
def boundIn (im : List Byte) (d : Nat) : Bool × Bool × Bool × Bool :=
  let ms := (planAllTiles im).flatMap fun (t : TileRec) => t.mats
  let m := ms.any fun i => i.f 184 3 = 4 + d
  let n := ms.any fun i => i.f 187 3 = 4 + d
  let k := ms.any fun i => i.f 190 3 = 4 + d
  (m || ms.any (fun i => i.f 193 3 = 4 + d), n, k, m || n || k)

/-- Whether a wide-channel list breaks R289: more than 64 in one aligned group of 4,096. -/
def wideOver (l : List Nat) : Bool :=
  let d := l.eraseDups
  d.any fun k => decide (64 < (d.filter fun j => j / 4096 = k / 4096).length)

/-- Whether a reduction group breaks Table 12.9 or R347: both halves of DEST lie in the HBM of its home die.
Assumption log 142 (DEDUCED). -/
def groupBad (g : List Byte) : Bool :=
  let die := leAt g 1 1
  let dest := leAt g 9 8
  decide (4 ≤ die) || decide (4096 ≤ leAt g 2 2) || leAt g 4 4 = 0 || decide (2 ^ 24 < leAt g 4 4) ||
  decide (1 < leAt g 8 1) || hbmDie dest != die || decide ((die + 1) * 0x2400000000 < dest + 8 * leAt g 4 4) ||
  dest % 256 != 0 || leAt g 17 8 % 8 != 0

/-- Home die and GROUP of a reduction group, as one number. -/
def groupKey (g : List Byte) : Nat := leAt g 1 1 * 256 + leAt g 0 1

/-- Whether two groups of a plan share their number on a home die (Table 12.9). Assumption log 142 (DEDUCED). -/
def groupsClash (gs : List (List Byte)) : Bool := (gs.map groupKey).eraseDups.length != gs.length

/-- LIMIT_EXCEEDED of R370. -/
def planOverLimit (im : List Byte) : Bool :=
  let dims := planDims im
  let nb := planBuckets im
  decide (4 < dims) || nb = 0 || decide (64 < nb) ||
  (List.range nb).any (fun b => (List.range dims).any fun d =>
    let v := bucketVal im b d
    v = 0 || decide ((if (boundIn im d).2.2.2 then 65520 else 65535) < v)) ||
  (List.range dims).any (fun d =>
    let (m, n, k, _) := boundIn im d
    (m && dimClass im d != 0) || (!m && n && dimClass im d != 1) || (!m && !n && k && dimClass im d != 2)) ||
  (planAllTiles im).any (fun t => t.code.isEmpty || decide (4096 < t.code.length) || t.period = 0 || decide (4096 < t.period)) ||
  (planResidency im).any (fun e => decide (8 < ((planResidency im).filter fun x => x.1 = e.1).length)) ||
  (planGroups im).any groupBad || groupsClash (planGroups im)

/-- Whether two sections overlap. -/
def sectsOverlap : List Sect → Bool
  | [] => false
  | a :: t => t.any (fun b => decide (a.off < b.off + b.len) && decide (b.off < a.off + a.len)) || sectsOverlap t

/-- IMAGE_MALFORMED of R370. `kind` is the KIND a model image requires (R184), none for a PLAN_LOAD. -/
def planMalformed (im : List Byte) (kind : Option Nat) : Bool :=
  let ss := planSects im
  let first := 64 + 16 * ss.length
  let ins := (planAllTiles im).flatMap fun (t : TileRec) => insList (t.code.length + 1) t.code 0
  decide (im.length < 64) || leAt im 0 4 != 0x504C414E || leAt im 4 2 != 1 || ss.isEmpty || decide (4096 < ss.length) ||
  decide (1 < leAt im 8 1) || (match kind with | some k => leAt im 8 1 != k | none => false) ||
  planFlags im / 16 != 0 || leAt im 19 1 != 0 || leAt im 24 8 != 0 || (slice im 32 32).any (· != 0) ||
  (List.range 4).any (fun d => dimClass im d = 3 || leAt im (20 + d) 1 / 8 != 0) ||
  ss.any (fun k => decide (k.off < first) || decide (im.length < k.off + k.len) || k.type = 0 || decide (8 < k.type) ||
    !k.zero || (k.type = 2 && (decide (3 < k.variant) || decide (planBuckets im ≤ k.bucket)))) ||
  sectsOverlap ss || (planAllTiles im).any (fun t => !t.good) || planRecordBad im ||
  ins.any (fun o => match o with
    | none => true
    | some i => i.reserved || (i.op = ocDma && decide (0xA ≤ i.f 0 4)) ||
        (i.op = ocDma && (planFlags im).testBit 0 && decide (5 ≤ i.f 0 4) && decide (i.f 0 4 ≤ 8)) ||
        (i.op = ocMatmul && i.f 202 2 != 0 &&
          (match (planLists im)[i.f 278 12]? with
           | none => true
           | some l => decide (l.length < i.f 266 12) || (i.f 202 2 = 1 && wideOver (l.take (i.f 266 12)))))) ||
  (List.range (planBuckets im)).any (fun b => !hasVariant im 0 b) ||
  (planFlags im).testBit 1 != ss.any (fun k => k.type = 2 && k.variant = 1) ||
  (planFlags im).testBit 2 != ss.any (fun k => k.type = 2 && k.variant = 2) ||
  (planFlags im).testBit 3 != ss.any (fun k => k.type = 2 && k.variant = 3) ||
  (planResidency im).any (fun e => e.2.2 = 0 || decide (8192 < e.2.1 + e.2.2) || (isM e.1 && decide (8190 < e.2.1 + e.2.2)))

/-! ### Walks and step order -/

/-- The smallest power of two not below n, from `p` on. -/
def pow2From (n : Nat) : Nat → Nat → Nat
  | 0, p => p
  | fuel + 1, p => if n ≤ p then p else pow2From n fuel (2 * p)

/-- Bits 0, 2, 4, … of d, packed (Morton). -/
def evenBits : Nat → Nat → Nat
  | 0, _ => 0
  | fuel + 1, d => d % 2 + 2 * evenBits fuel (d / 4)

/-- The Hilbert loop of R244. -/
def hilbert (s : Nat) : Nat → Nat → Nat → Nat → Nat → Nat × Nat
  | 0, _, _, n, m => (m, n)
  | fuel + 1, t, q, n, m =>
    if s ≤ q then (m, n) else
      let rx := (t / 2) % 2
      let ry := (t ^^^ rx) % 2
      let (n, m) := if ry = 0 then
          (let (n, m) := if rx = 1 then (q - 1 - n, q - 1 - m) else (n, m)
           (m, n)) else (n, m)
      hilbert s fuel (t / 4) (2 * q) (n + q * rx) (m + q * ry)

/-- The positions (m, n) of an R by C grid in the order of a walk (R244). -/
def walkList (kind r c : Nat) : List (Nat × Nat) :=
  if kind = 0 then (List.range (r * c)).map fun d => (d / c, d % c)
  else
    let s := pow2From (max r c) 17 1
    ((List.range (s * s)).map fun d =>
      if kind = 1 then (evenBits 17 (d / 2), evenBits 17 d) else hilbert s 17 d 1 0 0).filter
        fun p => decide (p.1 < r) && decide (p.2 < c)

/-- The shape of a matrix instruction in a bucket (R259, R260). -/
structure Shape where
  tm : Nat
  tn : Nat
  tk : Nat
  batch : Nat
  pm : Nat
  side : Nat
  walk : Nat
  folded : Bool
  deriving DecidableEq, Repr

/-- The value a BIND gives a tile count: its own value, or the bucket value over 16 (Table 9.5). -/
def bindTiles (vals : List Nat) (b own : Nat) : Nat := if b = 0 then own else cdiv (vals.getD (b - 4) 0) 16
/-- The value a BIND gives itself: its own value, or the bucket value (Table 9.5). -/
def bindSelf (vals : List Nat) (b own : Nat) : Nat := if b = 0 then own else vals.getD (b - 4) 0

/-- The shape of a matrix instruction in a bucket with the given values. -/
def Ins.shape (i : Ins) (vals : List Nat) (folded : Bool) : Shape :=
  let tm := bindTiles vals (i.f 184 3) (i.f 132 12)
  { tm := tm, tn := bindTiles vals (i.f 187 3) (i.f 144 12), tk := bindTiles vals (i.f 190 3) (i.f 156 12)
    batch := bindSelf vals (i.f 193 3) (i.f 168 16)
    pm := if i.f 196 6 = 0 then tm else i.f 196 6
    side := i.f 204 8, walk := i.f 344 2, folded := folded }

/-- STEPS (R260). -/
def Shape.steps (h : Shape) : Nat := h.batch * h.tn * h.tm * (h.tk + h.side)

/-- The panels (b, p, n) in visit order (R260, R266). -/
def Shape.panels (h : Shape) : List (Nat × Nat × Nat) :=
  let np := cdiv h.tm h.pm
  if h.folded then (walkList h.walk (h.batch * np) h.tn).map fun (q : Nat × Nat) => (q.1 / np, q.1 % np, q.2)
  else (List.range h.batch).flatMap fun b => (walkList h.walk np h.tn).map fun (q : Nat × Nat) => (b, q.1, q.2)

/-- One step of a matrix instruction: batch, M-tile, N-tile, K-tile, row of its panel, panel number, and the step at
which its weight block was loaded. -/
structure Step where
  b : Nat
  m : Nat
  n : Nat
  kt : Nat
  i : Nat
  u : Nat
  load : Nat
  deriving DecidableEq, Repr

/-- Step `j` counted from the panel list on; `base` counts the steps before it. -/
def stepFrom (h : Shape) : List (Nat × Nat × Nat) → Nat → Nat → Nat → Option Step
  | [], _, _, _ => none
  | (b, p, n) :: t, u, base, j =>
    let rows := min h.pm (h.tm - p * h.pm)
    let cnt := (h.tk + h.side) * rows
    if j < cnt then
      some { b := b, m := p * h.pm + j % rows, n := n, kt := j / rows, i := j % rows, u := u
             load := base + j / rows * rows }
    else stepFrom h t (u + 1) (base + cnt) (j - cnt)

/-- Step `j` of an instruction. -/
def Shape.step (h : Shape) (j : Nat) : Option Step := stepFrom h h.panels 0 0 j

/-- ACC_OVERCOMMIT of R271: some matrix instruction of the bucket's code needs more than 32 accumulator tiles. -/
def accOver (tiles : List TileRec) (vals : List Nat) : Bool :=
  tiles.any fun t => t.mats.any fun i =>
    decide (32 < i.f 346 5 + (i.shape vals false).pm * i.f 351 6)

end Sys2Proof.Machine
end

