-- ==== Sys2Proof/Machine/Grid.lean ====
section
/-! DEFINITION. The compute grid: tile memories with their poison marks, owners, faults, arrival counters, freezes, and
what happens in one CK_ARITH cycle (spec ch. 7 to 10). -/

namespace Sys2Proof.Machine

/-- Changes the grid. -/
def State.modGrid (s : State) (f : Grid → Grid) : State := { s with grid := f s.grid }

/-- The current CK_ARITH cycle. -/
def State.arith (s : State) : Nat := s.now / 2

/-! ### Tile memories -/

/-- Bytes of one row of a site's SRAM (R222, R227). -/
def rowLen (site : Nat) : Nat := if isM site then 64 else 32
/-- Key of a byte of a site's SRAM. -/
def sramKey (site row : Nat) : Nat := site * 2 ^ 19 + row * rowLen site
/-- Key of a row. -/
def rowKey (site row : Nat) : Nat := site * 8192 + row

/-- One row of a site's SRAM. -/
def State.rowRead (s : State) (site row : Nat) : List Byte :=
  (List.range (rowLen site)).map fun i => tget hbmDefault s.grid.sram (sramKey site row + i)

/-- The poison mark of a row (R239). -/
def State.rowMark (s : State) (site row : Nat) : Bool := tget noMark s.grid.sramPoison (rowKey site row)

/-- Sets the poison mark of a row. -/
def State.markRow (s : State) (site row : Nat) (p : Bool) : State :=
  s.modGrid fun g => { g with sramPoison := tset noMark g.sramPoison (rowKey site row) p }

/-- All nibbles of a row enabled. -/
def allNibbles (site : Nat) : Nat := 2 ^ (2 * rowLen site) - 1

/-- One byte merged from old and new under its two nibble enables. -/
def mergeByte (old new : Byte) (en : Nat) : Byte :=
  (if en.testBit 0 then new &&& 0x0F else old &&& 0x0F) ||| (if en.testBit 1 then new &&& 0xF0 else old &&& 0xF0)

/-- A row after a write under nibble enables. -/
def mergeRowBytes (old new : List Byte) (en : Nat) : List Byte :=
  old.zipIdx.map fun (x : Byte × Nat) => mergeByte x.1 (new.getD x.2 0) (bits en (2 * x.2) 2)

/-- A row written under nibble enables (R239, R299): a clean write of the whole row clears its mark, a clean write of a
part leaves it, a poisoned write sets it. -/
def State.rowWrite (s : State) (site row : Nat) (d : List Byte) (enable : Nat) (poison : Bool) : State :=
  if enable = 0 then s else
    let new := mergeRowBytes (s.rowRead site row) d enable
    let s1 := s.modGrid fun g => { g with sram := cellsWrite g.sram (sramKey site row) new }
    if poison then s1.markRow site row true
    else if enable = allNibbles site then s1.markRow site row false
    else s1

/-- A whole row written. -/
def State.rowPut (s : State) (site row : Nat) (d : List Byte) (poison : Bool) : State :=
  s.rowWrite site row d (allNibbles site) poison

/-- Key of an accumulator row (R226): row 512q + 16a + i of its tile. -/
def accKey (site row : Nat) : Nat := site * 2048 + row

/-- One accumulator row and its mark. -/
def State.accRead (s : State) (site row : Nat) : List W32 × Bool :=
  ((List.range 16).map fun c => tget (fun _ => 0) s.grid.acc (accKey site row * 16 + c),
   tget noMark s.grid.accPoison (accKey site row))

/-- Writes one accumulator row; the whole row, so the mark becomes that of the data. -/
def State.accWrite (s : State) (site row : Nat) (v : List W32) (poison : Bool) : State :=
  s.modGrid fun g =>
    { g with
      acc := v.zipIdx.foldl (fun m (x : W32 × Nat) => tset (fun _ => 0) m (accKey site row * 16 + x.2) x.1) g.acc
      accPoison := tset noMark g.accPoison (accKey site row) poison }

/-- Column c from row r of a scratchpad, and whether any of its rows is marked (R223, R225). -/
def State.colRead (s : State) (site r c : Nat) : List Byte × Bool :=
  ((List.range 16).flatMap fun i => slice (s.rowRead site (r + i)) (2 * c) 2,
   (List.range 16).any fun i => s.rowMark site (r + i))

/-! ### Errors of tile SRAM -/

/-- GRID_COUNT of a die. -/
def State.gridCnt (s : State) (die i : Nat) (k : Nat := 1) : State := s.addCtr 48 (R.GRID_COUNT die i) k

/-- A GRID counter that reads the same on every die. -/
def State.gridCntAll (s : State) (i : Nat) : State := (List.range 4).foldl (fun s d => s.gridCnt d i) s

/-- SRAM_ERR (Table 7.18): kind 0 scratchpad, 1 accumulators, 2 M-tile SRAM. -/
def State.sramErr (s : State) (site kind row : Nat) (uncorr : Bool) : State :=
  s.wrN (R.GRID_SRAM_ERR (siteDie site))
    (kind * 2 ^ 62 + b2n uncorr * 2 ^ 61 + siteCol site * 2 ^ 40 + siteRow site * 2 ^ 32 + row % 8192)

/-- The kind of a site's SRAM in SRAM_ERR. -/
def sramKind (site : Nat) : Nat := if isM site then 2 else 0

/-- Poison created at a row, or arriving from outside the schedule domain (R213): counted, recorded, event set. -/
def State.notePoison (s : State) (site kind row : Nat) : State :=
  ((s.gridCnt (siteDie site) 7).sramErr site kind row true).raise (F.GRID_EVENTS_UNCORR (siteDie site))

/-- A tile fails (R219): TILE_FAILED and, for the first of its die, FAILED_SITE; the module enters FAILED (R385).
Assumption log 73 (DEDUCED). -/
def State.failTile (s : State) (site : Nat) : State :=
  let d := siteDie site
  let s1 := if s.flag (F.GRID_FAILED_SITE_VALID d) then s
    else s.wrN (R.GRID_FAILED_SITE d) (2 ^ 31 + siteCol site * 256 + siteRow site)
  let s2 := s1.raise (F.GRID_EVENTS_TILE_FAILED d)
  { s2 with boot := { s2.boot with failing := true } }

/-- An uncorrectable error at a row (R213, R219): poison, and the second at one row address of one memory fails the
tile. `kind` as in SRAM_ERR. Assumption log 73 (DEDUCED). -/
def State.uncorrRow (s : State) (site kind row : Nat) : State :=
  let key := (site * 4 + kind, row)
  let s1 := s.notePoison site kind row
  let s2 := if kind = 1 then s1.modGrid fun g => { g with accPoison := tset noMark g.accPoison (accKey site row) true }
    else s1.markRow site row true
  let s3 := if s.grid.uncorr.contains key then s2.failTile site else s2
  s3.modGrid fun g => { g with uncorr := if g.uncorr.contains key then g.uncorr else key :: g.uncorr }

/-- What the correction stage meets when it reads a row (Table 7.5): 0 nothing, 1 one symbol, corrected and counted,
2 two symbols, 3 more. Two symbols of an M-tile row are left to the slow decoder: the caller becalms or not. -/
def State.meetErr (s : State) (site kind row cls : Nat) : State :=
  let d := siteDie site
  if cls = 0 then s
  else if cls = 1 then (s.gridCnt d (if kind = 0 then 4 else if kind = 1 then 5 else 6)).raise (F.GRID_EVENTS_CORR d)
  else if cls = 2 ∧ kind = 2 then s
  else s.uncorrRow site kind row

/-- A two-symbol error of an M-tile row is detected in this CK_ARITH cycle W (R210, R211): the schedule domain freezes
in W + 6 to W + 13. -/
def State.becalm (s : State) (site row : Nat) : State :=
  let d := siteDie site
  let s1 := ((s.gridCnt d 0).raise (F.GRID_EVENTS_BECALM d)).sramErr site 2 row false
  s1.modGrid fun g => { g with freezes := g.freezes ++ [(s.arith + 6, s.arith + 13)] }

/-! ### Owners and the near-edge region -/

/-- The owner of a row, when it is RESIDENT (R228). -/
def State.ownerOf (s : State) (site row : Nat) : Option Nat :=
  ((tget (fun _ => []) s.grid.residency site).find? fun (r : ResRange) =>
    decide (r.first ≤ row) && decide (row < r.first + r.count)).map fun (r : ResRange) => r.owner

/-- Whether a row is RESIDENT for another owner (R230). -/
def State.foreign (s : State) (site row owner : Nat) : Bool :=
  match s.ownerOf site row with
  | some o => o != owner
  | none => false

/-- Whether a site lies in the near-edge region (R216). -/
def State.inRegion (s : State) (site : Nat) : Bool :=
  let d := siteDie site
  decide (d < 2) && decide (siteRow site < s.gf (F.GRID_NE_CFG_NE_ROWS d)) &&
  decide (s.gf (F.GRID_NE_CFG_NE_COL0 d) ≤ siteCol site) &&
  decide (siteCol site < s.gf (F.GRID_NE_CFG_NE_COL0 d) + s.gf (F.GRID_NE_CFG_NE_WIDTH d))

/-! ### Runs, plan cycles and faults -/

/-- A run. -/
def State.run? (s : State) (key : Nat) : Option Run := tfind key s.grid.runs
/-- Sets a run. -/
def State.setRun (s : State) (key : Nat) (r : Run) : State := s.modGrid fun g => { g with runs := tins key r g.runs }
/-- Changes a run. -/
def State.modRun (s : State) (key : Nat) (f : Run → Run) : State :=
  match s.run? key with
  | some r => s.setRun key (f r)
  | none => s

/-- A tile of a run. -/
def Run.tile? (r : Run) (site : Nat) : Option Tile := tfind site r.tiles
/-- Changes a tile of a run. -/
def Run.modTile (r : Run) (site : Nat) (f : Tile → Tile) : Run :=
  match r.tile? site with
  | some t => { r with tiles := tins site (f t) r.tiles }
  | none => r
/-- Changes a tile. -/
def State.modTile (s : State) (key site : Nat) (f : Tile → Tile) : State := s.modRun key fun r => r.modTile site f

/-- Whether a becalm freezes the current CK_ARITH cycle (R210). -/
def State.becalmed (s : State) : Bool :=
  s.grid.freezes.any fun f => decide (f.1 ≤ s.arith) && decide (s.arith ≤ f.2)

/-- Whether an AWAIT holds the plan in a CK_ARITH cycle (R207): plan cycle A + 6 waits for S + 7. -/
def Await.holds (a : Await) (cycle k : Nat) : Bool :=
  decide (a.cycle + 6 ≤ cycle) && (match a.met with | none => true | some m => decide (k < m + 7))

/-- Whether a run is held in the current CK_ARITH cycle. -/
def State.held (s : State) (r : Run) : Bool := r.awaits.any fun a => a.holds r.cycle s.arith

/-- Whether THROTTLE freezes the compute plan in the current CK_ARITH cycle (R466): decided 6 cycles ahead.
Assumption log 134 (DEDUCED). -/
def State.throttled (s : State) : Bool :=
  decide (s.arith % 16 < if s.arith < s.pwr.throttleAt + 6 then s.pwr.throttleOld else s.gf F.PWR_STATUS_THROTTLE)

/-- Whether the current CK_ARITH cycle is a plan cycle of a run (R195). -/
def State.runs (s : State) (r : Run) : Bool :=
  decide (r.from_ ≤ s.arith) && !r.isOver && !s.becalmed && !s.held r && (r.neural || !s.throttled)

/-- The plan cycle of the schedule: a neural plan repeats its schedule every INTERVAL plan cycles (R218).
Assumption log 58 (DEDUCED). -/
def Run.phase (r : Run) : Nat := if r.neural ∧ r.interval ≠ 0 then r.cycle % r.interval else r.cycle

/-- A breach of the schedule or a consuming use of poison in the plan cycle in progress (R198, R214). -/
def State.breach (s : State) (key : Nat) (b : By) (cause : Nat) : State :=
  s.modRun key fun r => { r with faults := r.faults ++ [(b, cause)] }

/-- Causes of Table 7.1. -/
abbrev fcPoison : Nat := 1
abbrev fcBank : Nat := 2
abbrev fcMesh : Nat := 3
abbrev fcOwner : Nat := 4
abbrev fcAwait : Nat := 5
abbrev fcIllegal : Nat := 6
abbrev fcBounds : Nat := 7
abbrev fcFurled : Nat := 8
abbrev fcDmaFull : Nat := 9
abbrev fcTrespass : Nat := 10

/-- The rank of a fault among those of one plan cycle (R215): die, row, column, strand. -/
def By.rank (b : By) : Nat :=
  ((siteDie b.site * 32 + siteRow b.site) * 64 + siteCol b.site) * 256 + b.strand

/-- The fault captured among several of one plan cycle. Assumption log 65 (DEDUCED). -/
def firstFault : List (By × Nat) → Option (By × Nat)
  | [] => none
  | f :: t =>
    match firstFault t with
    | some g => if g.1.rank < f.1.rank then some g else some f
    | none => some f

/-- Captures a fault in FAULT_SITE, FAULT_PC and FAULT_CYCLE of its die while PLAN_FAULT, NE_FAULT and AWAIT_TIMEOUT are
all clear (R215, R220). Assumption log 65 (DEDUCED). -/
def State.captureFault (s : State) (r : Run) (b : By) (cause : Nat) : State :=
  let d := siteDie b.site
  if s.flag (F.GRID_EVENTS_PLAN_FAULT d) || s.flag (F.GRID_EVENTS_NE_FAULT d) || s.flag (F.GRID_EVENTS_AWAIT_TIMEOUT d)
  then s else
    let code := ((r.tile? b.site).map (·.code)).getD []
    let from_ := ((r.tile? b.site).map fun (t : Tile) => (tget (fun _ => {}) t.strands b.strand).start).getD 0
    let s1 := s.wrN (R.GRID_FAULT_SITE d)
      (cause * 2 ^ 28 + b.strand * 2 ^ 20 + b2n r.neural * 2 ^ 19 + siteCol b.site * 256 + siteRow b.site)
    let s2 := s1.wrN (R.GRID_FAULT_PC d) (insIndex (code.length + 1) code from_ b.pc)
    s2.wrN (R.GRID_FAULT_CYCLE d) (r.cycle % 2 ^ 48)

/-- The faults of the plan cycle in progress take force (R215): each is counted, the first is captured, and the plan
stops issuing after five more cycles. A plan that has faulted already faults no more. A neural plan's slot becomes
FAULTED. Assumption log 65 (DEDUCED). -/
def State.closeFaults (s : State) (key : Nat) : State :=
  match s.run? key with
  | none => s
  | some r =>
    match r.fault, firstFault r.faults with
    | none, some (b, cause) =>
      let s1 := r.faults.foldl (fun s (f : By × Nat) =>
        s.gridCnt (siteDie f.1.site) (if f.2 = fcPoison then 8 else 9)) s
      let s2 := s1.captureFault r b cause
      let s3 := if cause = fcAwait then s2.raise (F.GRID_EVENTS_AWAIT_TIMEOUT (siteDie b.site)) else s2
      let s4 := if r.neural then
          (s3.raise (F.GRID_EVENTS_NE_FAULT (siteDie b.site))).setFaulted r.slot
        else s3.raise (F.GRID_EVENTS_PLAN_FAULT (siteDie b.site))
      s4.setRun key { r with faults := [], fault := some (r.cycle, cause) }
    | _, _ => s.setRun key { r with faults := [] }

/-! ### Arrival counters -/

/-- Key of an arrival counter (R203). Assumption log 80 (DEDUCED). -/
def acKey (site strand idx : Nat) : Nat := (site * 256 + strand) * 4 + idx

/-- Adds to an arrival counter (R205). -/
def State.acAdd (s : State) (k n : Nat) : State :=
  s.modGrid fun g =>
    { g with
      acs := tset (fun _ => 0) g.acs k (tget (fun _ => 0) g.acs k + BitVec.ofNat 32 n)
      acNow := tset (fun _ => 0) g.acNow k (tget (fun _ => 0) g.acNow k + n) }

/-- SETAC: the increments of the same CK_ARITH cycle are applied after the write (R205). -/
def State.acSet (s : State) (k v : Nat) : State :=
  s.modGrid fun g =>
    { g with acs := tset (fun _ => 0) g.acs k (BitVec.ofNat 32 (v + tget (fun _ => 0) g.acNow k)) }

/-- The condition of an AWAIT (R206). -/
def State.acMet (s : State) (k v : Nat) : Bool :=
  decide (((tget (fun _ => (0 : W32)) s.grid.acs k).toNat + 2 ^ 32 - v % 2 ^ 32) % 2 ^ 32 < 2 ^ 31)

/-! ### One plan cycle -/

/-- A scheduled scratchpad read of a plan cycle: 0 row form, 1 column form. -/
structure Rd where
  form : Nat
  row : Nat
  col : Nat
  deriving DecidableEq, Repr

/-- The banks a FURL keeps from scheduled accesses in plan cycle n: from the cycle after its issue (R234). -/
def Tile.furledAt (t : Tile) (n : Nat) : Nat :=
  (List.range 16).foldl (fun m b =>
    if t.furled.testBit b && decide (tget (fun _ => 0) t.furlFrom b ≤ n) then m + 2 ^ b else m) 0

/-- Breaches of one scheduled scratchpad access: out of bounds, a furled bank, a foreign owner (R223, R234, R230). -/
def State.accessBreach (s : State) (key : Nat) (b : By) (t : Tile) (owner : Nat) (rows : List Nat) : State :=
  let s1 := if rows.any fun r => decide (8191 < r) then s.breach key b fcBounds else s
  let n := ((s.run? key).map (·.cycle)).getD 0
  let s2 := if t.furledAt n ≠ 0 ∧ !isM b.site then s1.breach key b fcFurled else s1
  if rows.any fun r => s.foreign b.site r owner then s2.breach key b fcOwner else s2

/-- The data of a scheduled scratchpad read; none out of bounds. -/
def State.rdData (s : State) (site : Nat) (r : Rd) : List Byte × Bool :=
  if r.form = 0 then (if r.row < 8192 then (s.rowRead site r.row, s.rowMark site r.row) else (List.replicate 32 0, false))
  else if r.row ≤ 8176 then s.colRead site r.row r.col else (List.replicate 32 0, false)

/-- The rows a scheduled read touches. -/
def Rd.rows (r : Rd) : List Nat := if r.form = 0 then [r.row] else (List.range 16).map fun i => r.row + i

/-- One fetch of a matrix instruction: what it fetches, and from a scratchpad read or a stream buffer. -/
structure Fetch where
  q : Nat
  start : Nat
  b : By
  tag : Nat
  step : Nat
  g : Nat
  src : Rd ⊕ Nat
  deriving DecidableEq

/-- A sheet descriptor's fields (Table 10.4, packed from bit 63): KIND, AXIS, EXP_EN, PRIV, SRC, ENT_BASE, EXP_BASE,
EXP_GSTR. Assumption log 66 (DEDUCED). -/
structure Sheet where
  activation : Bool
  axisK : Bool
  expEn : Bool
  priv : Bool
  src : Nat
  ent : Nat
  exp : Nat
  gstr : Nat
  bad : Bool
  deriving DecidableEq, Repr

/-- The descriptor of a word. -/
def sheetOf (w : W64) : Sheet :=
  let n := w.toNat
  { activation := n.testBit 63, axisK := n.testBit 62, expEn := n.testBit 61, priv := n.testBit 60
    src := bits n 58 2, ent := bits n 45 13, exp := bits n 32 13, gstr := bits n 19 13
    bad := n % 2 ^ 11 != 0 || bits n 58 2 = 1 || bits n 58 2 = 3 || (n.testBit 61 && n.testBit 62) ||
      (n.testBit 60 && n.testBit 63) }

/-- The sheet an operand names: none for 0xFF. -/
def Tile.sheet (t : Tile) (field : Nat) : Option Sheet :=
  if field = 0xFF then none else (t.sheets[field]?).map sheetOf

/-- Whether a matrix instruction's A or B buffer is used by its narrow or side operand (R287). -/
def Ins.streamA (i : Ins) : Bool := i.f 0 2 = 2 || (i.f 202 2 != 0 && i.f 212 2 = 2)
def Ins.streamB (i : Ins) : Bool := i.f 2 2 = 2 || (i.f 202 2 != 0 && i.f 290 2 = 2)

/-- The buffer a sheet with SRC 0b10 takes its units from (R287): one the operands leave free, its own name first. -/
def Ins.sheetBuf (i : Ins) (q : Nat) (isB : Bool) : Option Nat :=
  if isB then (if !i.streamB then some (2 * q + 1) else if !i.streamA then some (2 * q) else none)
  else (if !i.streamA then some (2 * q) else if !i.streamB then some (2 * q + 1) else none)

/-- Where unit g of an operand block comes from (R255, R257, R290). `o` is the place of BASE among the fields;
strides t1, t2 and the batch stride are given with their multipliers. -/
def operandSrc (src base row g buf : Nat) : Rd ⊕ Nat :=
  if src = 2 then .inr buf else if src = 1 then .inl ⟨1, base + row, g⟩ else .inl ⟨0, base + row + g, 0⟩

/-- The A unit g of a step. -/
def Ins.srcA (i : Ins) (q : Nat) (h : Shape) (p : Step) (g : Nat) : Rd ⊕ Nat :=
  if p.kt < h.tk then
    operandSrc (i.f 0 2) (i.f 12 13) (p.b * i.f 90 13 + p.m * i.f 38 13 + p.kt * i.f 51 13) g (2 * q)
  else operandSrc (i.f 212 2) (i.f 214 13) (p.b * i.f 253 13 + p.m * i.f 227 13 + (p.kt - h.tk) * i.f 240 13) g (2 * q)

/-- The weight unit g of a step. -/
def Ins.srcB (i : Ins) (q : Nat) (h : Shape) (p : Step) (g : Nat) : Rd ⊕ Nat :=
  if p.kt < h.tk then
    operandSrc (i.f 2 2) (i.f 25 13) (p.b * i.f 103 13 + p.kt * i.f 64 13 + p.n * i.f 77 13) g (2 * q + 1)
  else operandSrc (i.f 290 2) (i.f 292 13) (p.b * i.f 331 13 + (p.kt - h.tk) * i.f 305 13 + p.n * i.f 318 13) g (2 * q + 1)

/-- The format of an operand in a step: side operands are bfloat16 (R290). -/
def Ins.fmtA (i : Ins) (h : Shape) (p : Step) : Nat := if p.kt < h.tk then i.f 4 4 else fmBf16
def Ins.fmtB (i : Ins) (h : Shape) (p : Step) : Nat := if p.kt < h.tk then i.f 8 4 else fmBf16

/-- The sheet fetch at offset `x` of step `j` (Table 10.5). Assumption log 66 (DEDUCED). -/
def sheetFetch (t : Tile) (i : Ins) (q start : Nat) (b : By) (h : Shape) (p : Step) (j x : Nat) : List Fetch :=
  let one (isB : Bool) (sh : Sheet) (x0 : Nat) : List Fetch :=
    if (j = p.load || (!isB && !sh.axisK)) && decide (p.kt < h.tk) then
      let grp := if sh.axisK then p.kt else if isB then p.n else p.m
      let what (k row : Nat) : List Fetch :=
        let tag := (if isB then 5 else 2) + k
        if sh.src = 2 then ((i.sheetBuf q isB).map fun bf => (⟨q, start, b, tag, j, 0, .inr bf⟩ : Fetch)).toList
        else [⟨q, start, b, tag, j, 0, .inl ⟨0, row, 0⟩⟩]
      if x = x0 then what 0 (sh.ent + 2 * grp)
      else if x = x0 + 2 then what 1 (sh.ent + 2 * grp + 1)
      else if x = x0 + 4 && sh.expEn then what 2 (sh.exp + grp * sh.gstr + p.kt / 4 / 2)
      else []
    else []
  (match t.sheet (i.f 116 8) with | some sh => one false sh 1 | none => []) ++
  (match t.sheet (i.f 124 8) with | some sh => one true sh 9 | none => [])

/-- The shape of a matrix instruction in a run. -/
def Run.shapeOf (r : Run) (m : MatRun) : Shape := (⟨6, m.w⟩ : Ins).shape r.bucket (r.variant = 1)

/-- The fetches of a matrix instruction in plan cycle n (Tables 9.1, 10.5). -/
def Run.fetches (r : Run) (site n : Nat) (t : Tile) (m : MatRun) : List Fetch :=
  if n < m.start then [] else
    let i : Ins := ⟨6, m.w⟩
    let h := r.shapeOf m
    let b : By := ⟨site, m.q, m.pc⟩
    let c := n - m.start
    let j := c / 16
    let x := c % 16
    let weights := match h.step j with
      | some p =>
        let u := fmtU (i.fmtB h p)
        (if p.load = j ∧ x % u = 0 then [(⟨m.q, m.start, b, 0, j, x / u, i.srcB m.q h p (x / u)⟩ : Fetch)] else []) ++
        sheetFetch t i m.q m.start b h p j x
      | none => []
    let avec := if c < 16 then [] else match h.step (j - 1) with
      | some p =>
        let u := fmtU (i.fmtA h p)
        if x % u = 0 then [(⟨m.q, m.start, b, 1, j - 1, x / u, i.srcA m.q h p (x / u)⟩ : Fetch)] else []
      | none => []
    weights ++ avec

/-- Takes the next unit of a stream buffer (R257, R287). Assumption log 66 (DEDUCED). -/
def Tile.takeUnit (t : Tile) (buf : Nat) : (List Byte × Bool) × Tile :=
  let st := tget (fun _ => {}) t.streams buf
  let (d, p) := tget (fun _ => (List.replicate 64 0, false)) st.slots (st.taken / 2 % 4)
  ((slice d (32 * (st.taken % 2)) 32, p), { t with streams := tins buf { st with taken := st.taken + 1 } t.streams })

/-- Lands a flit in a stream buffer (R257). -/
def Tile.landUnit (t : Tile) (buf : Nat) (d : List Byte) (p : Bool) : Tile :=
  let st := tget (fun _ => {}) t.streams buf
  { t with streams := tins buf { st with landed := st.landed + 1, slots := tins (st.landed % 4) (d, p) st.slots } t.streams }

/-- Gives a fetched unit to its matrix instruction. -/
def Tile.giveUnit (t : Tile) (f : Fetch) (d : List Byte) (p : Bool) : Tile :=
  { t with mats := t.mats.map fun m =>
      if m.q = f.q ∧ m.start = f.start then { m with units := m.units ++ [⟨f.tag, f.step, f.g, d, p⟩] } else m }

/-- Performs one fetch. -/
def State.doFetch (s : State) (key site owner : Nat) (f : Fetch) : State :=
  match s.run? key with
  | none => s
  | some r =>
    match r.tile? site with
    | none => s
    | some t =>
      match f.src with
      | .inl rd =>
        let (d, p) := s.rdData site rd
        (s.accessBreach key f.b t owner rd.rows).modTile key site fun t => t.giveUnit f d p
      | .inr buf =>
        let ((d, p), _) := t.takeUnit buf
        s.modTile key site fun t => ((t.takeUnit buf).2).giveUnit f d p

/-- The lowest strand of a list of accessors. Assumption log 64 (DEDUCED). -/
def lowest : List By → Option By
  | [] => none
  | b :: t => match lowest t with
    | some c => if c.strand < b.strand then some c else some b
    | none => some b

/-- BANK_CONFLICT when more than one distinct access is on a list (R224, R256). Assumption log 64 (DEDUCED). -/
def State.conflict (s : State) (key : Nat) (distinct : Nat) (bs : List By) : State :=
  if 2 ≤ distinct then (match lowest bs with | some b => s.breach key b fcBank | none => s) else s

/-- Whether an element is masked: the run-time value of the dimension a BIND names (R264). -/
def Run.beyond (r : Run) (bind idx : Nat) : Bool := if bind < 4 then false else decide (r.dims.getD (bind - 4) 0 ≤ idx)

/-- CUT of an instruction (R291): COUNT, or the list entries below the run-time value of the dimension bound to TK. -/
def Run.cut (r : Run) (i : Ins) : Nat :=
  let n := i.f 266 12
  if i.f 190 3 = 0 then n
  else (((r.lists.getD (i.f 278 12) []).take n).filter fun k => !r.beyond (i.f 190 3) k).length

/-- Whether term (kt, j) is masked (R264, R291). -/
def Run.termMasked (r : Run) (i : Ins) (h : Shape) (kt j : Nat) : Bool :=
  if kt < h.tk then r.beyond (i.f 190 3) (16 * kt + j)
  else r.beyond (i.f 190 3) 0 || decide (r.cut i ≤ 16 * (kt - h.tk) + j)

/-- The unit of a tag, step and group. -/
def MatRun.unit (m : MatRun) (tag step g : Nat) : Option MatUnit :=
  m.units.find? fun u => u.tag = tag && u.step = step && u.g = g

/-- The entry through which element with channel `k` of its group expands, with the poison of its units. -/
def MatRun.entry (m : MatRun) (isB : Bool) (sh : Sheet) (step kt k : Nat) : SheetEntry × Bool :=
  let t := if isB then 5 else 2
  let row := m.unit (t + k / 8) step 0
  let d := (row.map (·.data)).getD []
  let ex := if sh.expEn then m.unit (t + 2) step 0 else none
  let e : Int := match ex with
    | some u => sgn 8 (leAt u.data (16 * (kt / 4 % 2) + k) 1)
    | none => 0
  (⟨leAt d (4 * (k % 8)) 2, leAt d (4 * (k % 8) + 2) 2, e, sh.activation, sh.priv⟩,
   ((row.map (·.poison)).getD false) || ((ex.map (·.poison)).getD false))

/-- An expanded operand element with the poison it carries: vector `v` of the block, element `j` (R254, R280). -/
def MatRun.elem (m : MatRun) (isB : Bool) (f : Nat) (sh : Option Sheet) (step shStep kt v j k : Nat) : Nat × Bool :=
  let u := fmtU f
  let un := m.unit (if isB then 0 else 1) step (v / u)
  let code := unitElem f (16 * (v % u) + j) ((un.map (·.data)).getD [])
  let p := (un.map (·.poison)).getD false
  match sh with
  | none => (expandCode f code none, p)
  | some sh =>
    let (en, q) := m.entry isB sh shStep kt k
    (expandCode f code (some en), p || q)

/-- The update of row i of step j (R249, R263, R264): the new row, its poison, and whether poison was consumed. -/
def State.rowUpdate (s : State) (r : Run) (site : Nat) (t : Tile) (m : MatRun) (p : Step) (j i : Nat) :
    List W32 × Bool × Bool :=
  let ins : Ins := ⟨6, m.w⟩
  let h := r.shapeOf m
  let shA := if p.kt < h.tk then t.sheet (ins.f 116 8) else none
  let shB := if p.kt < h.tk then t.sheet (ins.f 124 8) else none
  let fa := ins.fmtA h p
  let fb := ins.fmtB h p
  let row := 512 * m.q + 16 * (ins.f 346 5 + h.pm * (p.u % ins.f 351 6) + p.i) + i
  let (old, oldP) := s.accRead site row
  let out := r.beyond (ins.f 184 3) (16 * p.m + i) || r.beyond (ins.f 193 3) p.b
  let js := (List.range 16).filter fun x => !r.termMasked ins h p.kt x
  let elemA (x : Nat) : Nat × Bool :=
    m.elem false fa shA j (match shA with | some sh => if sh.axisK then p.load else j | none => j) p.kt i x
      (match shA with | some sh => if sh.axisK then x else i | none => 0)
  let elemB (x c : Nat) : Nat × Bool :=
    m.elem true fb shB p.load p.load p.kt x c (match shB with | some sh => if sh.axisK then x else c | none => 0)
  let cells := (List.range 16).map fun c =>
    if out || r.beyond (ins.f 187 3) (16 * p.n + c) then ((0 : W32), false)
    else
      let ts := js.map fun x => (elemA x, elemB x c)
      let v := chain (ts.map fun (y : (Nat × Bool) × (Nat × Bool)) => (y.1.1, y.2.1))
      let bad := ts.any fun y => y.1.2 || y.2.2
      (match v with
       | none => if p.kt = 0 then 0 else old.getD c 0
       | some v => if p.kt = 0 then v else fadd (old.getD c 0) v, bad)
  let used := cells.any fun (x : W32 × Bool) => x.2
  (cells.map fun (x : W32 × Bool) => x.1, used || (oldP && p.kt != 0), used)

/-- Units a matrix instruction no longer needs once the cycle has passed. -/
def MatRun.prune (m : MatRun) (h : Shape) (c : Nat) : MatRun :=
  let j := (c - 39) / 16
  let load := ((h.step j).map (·.load)).getD j
  { m with units := m.units.filter fun u => decide (load ≤ u.step) && (u.tag != 1 || decide (j ≤ u.step)) }

/-- The accumulator access of a matrix instruction in plan cycle n: bank and accessor. -/
def Run.matAcc (r : Run) (site n : Nat) (m : MatRun) : List (Nat × By) :=
  if n < m.start + 39 then [] else
    match (r.shapeOf m).step ((n - m.start - 39) / 16) with
    | none => []
    | some p =>
      let i : Ins := ⟨6, m.w⟩
      let a := i.f 346 5 + (r.shapeOf m).pm * (p.u % i.f 351 6) + p.i
      [(2 * m.q + a % 2, ⟨site, m.q, m.pc⟩)]

/-- Performs the accumulator update of a matrix instruction in plan cycle n. -/
def State.matUpdate (s : State) (key site n : Nat) (m : MatRun) : State :=
  if n < m.start + 39 then s else
    match s.run? key with
    | none => s
    | some r =>
      match r.tile? site, (r.shapeOf m).step ((n - m.start - 39) / 16) with
      | some t, some p =>
        let j := (n - m.start - 39) / 16
        let i := (n - m.start - 39) % 16
        let ins : Ins := ⟨6, m.w⟩
        let b : By := ⟨site, m.q, m.pc⟩
        let a := ins.f 346 5 + (r.shapeOf m).pm * (p.u % ins.f 351 6) + p.i
        if 31 < a then s.breach key b fcBounds else
          let (row, pz, used) := s.rowUpdate r site t m p j i
          let s1 := s.accWrite site (512 * m.q + 16 * a + i) row pz
          if used && !r.neural then s1.breach key b fcPoison else s1
      | _, _ => s

/-- Fields of a RESCALE (Table 10.10). -/
def Ins.rArray (i : Ins) : Nat := i.f 0 2
def Ins.rTile (i : Ins) : Nat := i.f 2 5
def Ins.rClear (i : Ins) : Bool := i.f 7 1 = 1
def Ins.rTab (i : Ins) : Nat := i.f 8 13
def Ins.rFmt (i : Ins) : Nat := i.f 21 4
def Ins.rOut (i : Ins) : Nat := i.f 25 13

/-- Whether element (i, c) of a RESCALE is masked (R299). -/
def Run.resMasked (r : Run) (ins : Ins) (i c : Nat) : Bool :=
  r.beyond (ins.f 62 3) (16 * ins.f 38 12 + i) || r.beyond (ins.f 65 3) (16 * ins.f 50 12 + c)

/-- One element of R298: the code, d, t. -/
def rescaleElem (f : Nat) (entry : List Byte) (acc : W32) : Nat × FV × FV :=
  let w (o : Nat) : W32 := BitVec.ofNat 32 (leAt entry o 4)
  let y := fmul acc (w 0)
  let z := fadd y (w 4)
  let d := fsub z (bfWide (leAt entry 12 2))
  let t := fmul d (w 8)
  (rescaleCode f (leAt entry 14 1) (leAt entry 15 1) (fdec t), fdec d, fdec t)

/-- A census record after one element (R303). -/
def Census.count (k : Census) (sat under : Bool) (t mag : FV) : Census :=
  { elems := k.elems + 1
    sat := k.sat + b2n sat
    under := k.under + b2n under
    amax := if fvNan t || !fvFin mag then k.amax else max k.amax (fenc (fvAbs mag)).toNat }

/-- The entry of channel c in the eight table rows of a RESCALE (R295), with its row's poison. -/
def ResRun.entry (m : ResRun) (c : Nat) : List Byte × Bool :=
  let (d, p) := m.tab.getD (c / 2) ([], false)
  (slice d (16 * (c % 2)) 16, p)

/-- Output unit g of a RESCALE (R297 to R299): bytes, nibble enables, whether poison reaches it, and the census
counts. -/
def Run.resUnit (r : Run) (m : ResRun) (g : Nat) : List Byte × Nat × Bool × List (Nat × (FV × FV × Nat)) :=
  let ins : Ins := ⟨2, m.w⟩
  let f := ins.rFmt
  let u := fmtU f
  let elems := (List.range (16 * u)).map fun e =>
    let i := u * g + e / 16
    let c := e % 16
    let (row, rp) := m.rows.getD i ([], false)
    let (en, ep) := m.entry c
    let (code, d, t) := rescaleElem f en (row.getD c 0)
    let masked := r.resMasked ins i c
    (code, masked, (rp || ep) && !masked, (16 * ins.f 50 12 + c, (d, t, code)))
  let nib := fmtBits f / 4
  let en := elems.zipIdx.foldl (fun a x => if x.1.2.1 then a else a + (2 ^ nib - 1) * 2 ^ (nib * x.2)) 0
  (packCodes f (elems.map (·.1)), en, elems.any (·.2.2.1),
   elems.filterMap fun x => if x.2.1 then none else some x.2.2.2)

/-- Counts a RESCALE's elements in the census buffer of its tile (R303). -/
def State.census (s : State) (key site : Nat) (m : ResRun) (cs : List (Nat × (FV × FV × Nat))) : State :=
  let ins : Ins := ⟨2, m.w⟩
  match m.bind with
  | none => s
  | some (_, _, nb) =>
    if ins.rFmt = fmBf16 then s else
      cs.foldl (fun s (x : Nat × (FV × FV × Nat)) =>
        let (ch, d, t, code) := x
        let entry := (m.entry (ch % 16)).1
        let sat := rescaleSat ins.rFmt (leAt entry 14 1) (leAt entry 15 1) t code
        let under := underflows ins.rFmt t code
        s.modTile key site fun tl =>
          { tl with census := tmod (fun _ => {}) tl.census (ch - 16 * nb) fun k => k.count sat under t d }) s

/-- The scheduled reads of a RESCALE in plan cycle n. -/
def resReads (n : Nat) (m : ResRun) : List Rd :=
  if m.start ≤ n ∧ n < m.start + 8 then [⟨0, (⟨2, m.w⟩ : Ins).rTab + (n - m.start), 0⟩] else []

/-- The accumulator row a RESCALE reads in plan cycle n. -/
def resAcc (n : Nat) (m : ResRun) : Option Nat :=
  if m.start + 8 ≤ n ∧ n < m.start + 24 then
    some (512 * (⟨2, m.w⟩ : Ins).rArray + 16 * (⟨2, m.w⟩ : Ins).rTile + (n - m.start - 8)) else none

/-- The output unit a RESCALE writes in plan cycle n (Table 10.11). -/
def resOut (n : Nat) (m : ResRun) : Option Nat :=
  let u := fmtU (⟨2, m.w⟩ : Ins).rFmt
  if m.start + 18 ≤ n ∧ n ≤ m.start + 33 ∧ (n - m.start - 17) % u = 0 then some ((n - m.start - 17) / u - 1) else none

/-- Changes a RESCALE of a tile. -/
def Tile.modRes (t : Tile) (m : ResRun) (f : ResRun → ResRun) : Tile :=
  { t with rescs := t.rescs.map fun x => if x.pc = m.pc ∧ x.start = m.start ∧ x.strand = m.strand then f x else x }

/-- One RESCALE in plan cycle n: its table row, its accumulator row (written +0 with CLEAR), its output unit. -/
def State.resCycle (s : State) (key site n : Nat) (owner : Nat) (m : ResRun) : State :=
  match s.run? key with
  | none => s
  | some r =>
    match r.tile? site with
    | none => s
    | some t =>
      let ins : Ins := ⟨2, m.w⟩
      let b : By := ⟨site, m.strand, m.pc⟩
      let s := if n + 1 = m.start then s.modTile key site fun t => t.modRes m fun y => { y with bind := t.bind } else s
      let s1 := (resReads n m).foldl (fun s (rd : Rd) =>
        let x := s.rdData site rd
        (s.accessBreach key b t owner rd.rows).modTile key site fun t => t.modRes m fun y => { y with tab := y.tab ++ [x] }) s
      let s2 := match resAcc n m with
        | none => s1
        | some row =>
          let x := s1.accRead site row
          let sR := s1.modTile key site fun t => t.modRes m fun y => { y with rows := y.rows ++ [x] }
          if ins.rClear then sR.accWrite site row (List.replicate 16 0) false else sR
      match resOut n m with
      | none => s2
      | some g =>
        let (d, en, pz, cs) := r.resUnit m g
        let row := ins.rOut + g
        let s3 := s2.census key site m cs
        let s4 := if pz && !r.neural then s3.breach key b fcPoison else s3
        let s5 := if en = 0 then s4 else s4.accessBreach key b t owner [row]
        if row < 8192 then s5.rowWrite site row d en pz else s5

/-- What falls due in plan cycle n: writes of VEC, departures and landings of flits, breaches, becalms. A flit may land on a
tile for which the plan has no code (R200). -/
def State.planEvent (s : State) (key : Nat) (e : PlanEv) : State :=
  match s.run? key with
  | none => s
  | some r =>
    match e with
    | .row b row d en pz =>
      match r.tile? b.site with
      | none => s
      | some t =>
        let s1 := s.accessBreach key b t r.owner [row]
        if row < 8192 then s1.rowWrite b.site row d en pz else s1
    | .depart b src dest target row land bad =>
      let rows := if isM b.site then [src] else [src, src + 1]
      let t := (r.tile? b.site).getD {}
      let s1 := s.accessBreach key b t r.owner rows
      let d := rows.flatMap fun x => if x < 8192 then s.rowRead b.site x else List.replicate (rowLen b.site) 0
      let pz := bad || rows.any fun x => s.rowMark b.site x
      s1.modRun key fun r => { r with events := r.events ++ [(land, .flit b dest target row d pz)] }
    | .flit b site target row d pz =>
      let t := (r.tile? site).getD {}
      let s0 := if (r.tile? site).isSome then s else s.modRun key fun r => { r with tiles := tins site t r.tiles }
      if 0 < target then s0.modTile key site fun t => t.landUnit (target - 1) d pz
      else if isM site then
        let s1 := s0.accessBreach key { b with site := site } t r.owner [row]
        if row < 8192 then s1.rowPut site row d pz else s1
      else
        let s1 := s0.accessBreach key { b with site := site } t r.owner [row, row + 1]
        let s2 := if row < 8192 then s1.rowPut site row (d.take 32) pz else s1
        if row + 1 < 8192 then s2.rowPut site (row + 1) (d.drop 32) pz else s2
    | .read _ => s
    | .breach b cause => s.breach key b cause
    | .becalm site row => s.becalm site row

/-- The scheduled writes of a site's SRAM in plan cycle n, one per access: bank group and accessor. An M-tile row lies
in one bank; a scratchpad access takes all (R224, R227). Assumption log 64 (DEDUCED). -/
def Run.writes (r : Run) (site n : Nat) (t : Tile) : List (Nat × By) :=
  (r.events.filterMap fun (e : Nat × PlanEv) =>
    if e.1 ≠ n then none else match e.2 with
      | .row b row _ _ _ => if b.site = site then some (if isM site then row % 32 else 0, b) else none
      | .flit b st target row _ _ => if st = site ∧ target = 0 then some (if isM site then row % 32 else 0, b) else none
      | _ => none) ++
  t.rescs.filterMap fun m => (resOut n m).map fun _ => (0, (⟨site, m.strand, m.pc⟩ : By))

/-- The scheduled reads of a site's SRAM by a VEC or by the flits of a SEND in plan cycle n: bank group and accessor.
Assumption log 64 (DEDUCED). -/
def Run.otherReads (r : Run) (site n : Nat) : List (Nat × By) :=
  r.events.filterMap fun (e : Nat × PlanEv) =>
    if e.1 ≠ n then none else match e.2 with
      | .read b => if b.site = site then some (0, b) else none
      | .depart b src _ _ _ _ _ => if b.site = site then some (if isM site then src % 32 else 0, b) else none
      | _ => none

/-- One tile in plan cycle n: reads, then accumulator accesses, then the RESCALE units. -/
def State.tileCycle (s : State) (key n : Nat) (e : Nat × Tile) : State :=
  match s.run? key with
  | none => s
  | some r =>
    let (site, t) := e
    let fs := t.mats.flatMap fun m => r.fetches site n t m
    let reads := (fs.filterMap fun (f : Fetch) => match f.src with | .inl rd => some (rd, f.b) | .inr _ => none) ++
      t.rescs.flatMap fun m => (resReads n m).map fun rd => (rd, (⟨site, m.strand, m.pc⟩ : By))
    let others := r.otherReads site n
    let s1 := (List.range 32).foldl (fun s k =>
      let here := others.filter fun a => a.1 = k
      s.conflict key ((if k = 0 then ((reads.map (·.1)).eraseDups).length else 0) + here.length)
        ((if k = 0 then reads.map (·.2) else []) ++ here.map (·.2))) s
    let accs := (t.mats.flatMap fun m => r.matAcc site n m) ++
      t.rescs.filterMap fun m => (resAcc n m).map fun row =>
        (2 * (row / 512) + row % 512 / 16 % 2, (⟨site, m.strand, m.pc⟩ : By))
    let s2 := (List.range 8).foldl (fun s k =>
      let here := accs.filter fun a => a.1 = k
      s.conflict key here.length (here.map (·.2))) s1
    let ws := r.writes site n t
    let s3 := (List.range 32).foldl (fun s k =>
      let here := ws.filter fun a => a.1 = k
      s.conflict key here.length (here.map (·.2))) s2
    let s4 := fs.foldl (fun s f => s.doFetch key site r.owner f) s3
    let mats := (((s4.run? key).bind fun r => r.tile? site).map (·.mats)).getD []
    let s5 := mats.foldl (fun s m => s.matUpdate key site n m) s4
    let s6 := t.rescs.foldl (fun s m => s.resCycle key site n r.owner m) s5
    s6.modTile key site fun t =>
      { t with
        mats := (t.mats.map fun m => if n < m.start + 39 then m else m.prune (r.shapeOf m) (n - m.start)).filter fun m =>
          decide (n < m.start + 16 * m.steps + 38)
        rescs := t.rescs.filter fun m => decide (n < m.start + 33) }

/-- A tile's strands start over at the end of a neural plan's interval (R218). -/
def Tile.rewind (t : Tile) : Tile :=
  { t with
    strands := t.strands.map fun (e : Nat × Strand) => (e.1, { e.2 with pc := e.2.start, ended := false, loops := [] }) }

/-- The erase of R237 in plan cycle n: every cell of the bank reads zero, and the bank is usable. -/
def State.eraseBank (s : State) (site bank : Nat) : State :=
  let s1 := (List.range 8192).foldl (fun (s : State) row =>
    let k := sramKey site row + 2 * ((bank + 16 - row % 16) % 16)
    s.modGrid fun g => { g with sram := tset hbmDefault (tset hbmDefault g.sram k 0) (k + 1) 0 }) s
  s1.addCtr 48 (R.MEM_COUNT (siteDie site) 12) 1

/-- Erases whose plan cycle has come. -/
def State.erases (s : State) (key n site : Nat) (t : Tile) : State :=
  t.erase.foldl (fun s (e : Nat × Nat) =>
    if e.2 ≤ n then
      (s.eraseBank site e.1).modTile key site fun t =>
        { t with erase := tdel e.1 t.erase, furled := t.furled &&& (0xFFFF ^^^ 2 ^ e.1), down := t.down &&& (0xFFFF ^^^ 2 ^ e.1) }
    else s) s

/-- FURLs that complete at the end of this cycle (R235): no side-port write outstanding at the bank. A scratchpad write
of 64 bytes touches every bank. -/
def State.furlDone (s : State) (key n site : Nat) (t : Tile) : State :=
  let wait := t.furled &&& (0xFFFF ^^^ t.down)
  if wait = 0 || (s.grid.side.any fun (w : SideWrite) => w.site = site) then s else
    let pend := (List.range 16).filter fun b =>
      wait.testBit b && (tfind b t.erase).isNone && decide (tget (fun _ => 0) t.furlFrom b ≤ n)
    let s1 := s.addCtr 48 (R.MEM_COUNT (siteDie site) 11) pend.length
    s1.modTile key site fun t => { t with down := pend.foldl (fun d b => d ||| 2 ^ b) t.down }

/-- One plan cycle of a run: what its tiles do, what falls due, faults, then the next plan cycle. -/
def State.planTick (s : State) (key : Nat) (r : Run) : State :=
  let n := r.cycle
  let s0 := r.tiles.foldl (fun s (e : Nat × Tile) => s.erases key n e.1 e.2) s
  let tiles := ((s0.run? key).map (·.tiles)).getD []
  let s1 := tiles.foldl (fun s (e : Nat × Tile) => s.tileCycle key n e) s0
  let due := r.events.filter fun (e : Nat × PlanEv) => e.1 = n
  let s2 := due.foldl (fun s (e : Nat × PlanEv) => s.planEvent key e.2) s1
  let s3 := (((s2.run? key).map (·.tiles)).getD []).foldl (fun s (e : Nat × Tile) => s.furlDone key n e.1 e.2) s2
  let s4 := s3.closeFaults key
  s4.modRun key fun r =>
    let atEnd := (!r.neural && decide (r.cycle = r.last)) ||
      (match r.fault with | some (f, _) => decide (f + 5 ≤ r.cycle) | none => false)
    let rewind := r.neural && r.interval != 0 && (r.cycle + 1) % r.interval = 0
    { r with
      events := r.events.filter fun (e : Nat × PlanEv) => decide (n < e.1)
      links := r.links.filter fun (e : Nat × Nat) => decide (n < e.1)
      isOver := atEnd
      cycle := if atEnd then r.cycle else r.cycle + 1
      tiles := r.tiles.map fun (e : Nat × Tile) => (e.1, { (if rewind then e.2.rewind else e.2) with issued := none }) }

/-- The AWAITs of a run at the end of a CK_ARITH cycle (R207): met ones of this cycle vanish, failing ones hold, and
a hold whose plan cycle has begun is over. Assumption log 71 (DEDUCED). -/
def State.awaitTick (s : State) (key : Nat) (r : Run) : State :=
  let k := s.arith
  let fresh := r.awaits.filter fun a => a.issued = k && !s.acMet a.ac a.value
  let s1 := fresh.foldl (fun s a => s.gridCnt (siteDie a.site) 2) s
  s1.modRun key fun r =>
    { r with awaits := r.awaits.filterMap fun a =>
        let met := s.acMet a.ac a.value
        if a.issued = k then (if met then none else some a)
        else
          let a' := match a.met with
            | some _ => a
            | none => if met then { a with met := some k } else a
          if a'.met.isSome && decide (a.cycle + 6 < r.cycle) then none else some a' }

/-- GRID_STATUS and PLAN_CYCLE follow the compute run (Tables 7.9, 7.10). -/
def State.syncGrid (s : State) : State :=
  let (running, hold, cyc) := match s.run? 0 with
    | some r => (!r.isOver, !r.isOver && s.held r, some r.cycle)
    | none => (false, false, none)
  (List.range 4).foldl (fun s d =>
    let s1 := s.wrN (R.GRID_STATUS d) (b2n running + 2 * b2n s.becalmed + 4 * b2n hold)
    match cyc with
    | some c => s1.wrN (R.GRID_PLAN_CYCLE d) (c % 2 ^ 48)
    | none => s1) s

/-- The end of one CK_ARITH cycle. -/
def State.arithTick (s : State) : State :=
  if s.grid.runs.isEmpty ∧ s.grid.freezes.isEmpty then
    (if s.grid.acNow.isEmpty then s else s.modGrid fun g => { g with acNow := [] })
  else
    let s1 := if s.becalmed then s.gridCntAll 1 else s
    let s2 := match s.run? 0 with
      | some r =>
        if r.isOver then s1 else if s.held r then s1.gridCntAll 3
        else if s.throttled && !s.becalmed then s1.addCtr 48 (R.PWR_COUNT 0) 1 else s1
      | none => s1
    let s3 := s.grid.runs.foldl (fun s' (e : Nat × Run) => if s.runs e.2 then s'.planTick e.1 e.2 else s') s2
    let s4 := s3.grid.runs.foldl (fun s (e : Nat × Run) => s.awaitTick e.1 e.2) s3
    s4.modGrid fun g =>
      { g with acNow := [], freezes := g.freezes.filter fun (f : Nat × Nat) => decide (s.arith < f.2) }

end Sys2Proof.Machine
end

