-- ==== Sys2Proof/Machine/Clock.lean ====
section
/-! DEFINITION. Time: the PTP clock (R66) and the passing of CK_NET cycles. A command that the spec ties to a due cycle
lets the machine's clock run to that cycle; a step with nothing waiting lets one CK_NET cycle pass. -/

namespace Sys2Proof.Machine

/-- Units of 2^-48 ns in a nanosecond. -/
def nsUnits : Nat := 2 ^ 48

/-- One step of the clock in units of 2^-48 ns (R66): 1,280 / (32 N) ns scaled by 1 + RATE * 2^-32, truncated. -/
def ptpStep (n rate : Nat) : Nat := (40 * 2 ^ 16 * ((2 ^ 32 : Nat) + sgn 32 rate).toNat) / n

/-- A clock value as one number of 2^-48 ns units. -/
def Instant.units (t : Instant) : Nat := (t.sec * 1000000000 + t.ns) * nsUnits + t.frac

/-- The instant of a number of units; seconds wrap at 48 bits. -/
def ofUnits (u : Nat) : Instant :=
  { frac := u % nsUnits, ns := u / nsUnits % 1000000000, sec := u / nsUnits / 1000000000 % 2 ^ 48 }

/-- An instant moved by a signed number of units. -/
def Instant.shift (t : Instant) (d : Int) : Instant :=
  ofUnits (((t.units : Int) + d) % ((2 ^ 48 * 1000000000 * nsUnits : Nat) : Int)).toNat

/-- The step in force. -/
def State.ptpStepNow (s : State) : Nat := ptpStep s.divN (s.gf F.ETH_PTP_RATE_RATE)

/-- Whether the clock runs: from the lock of the root PLL in step 3 on (R66). -/
def State.ptpRuns (s : State) : Bool := decide (4 ≤ s.gf F.BOOT_STATUS_STEP)

/-- The clock a stretch gives for a cycle. -/
def PtpRun.at_ (r : PtpRun) (t : Nat) : Instant :=
  (ofUnits r.units).shift (((t : Int) - r.from_) * r.step)

/-- The stretches with the present one in front: a new one begins where the clock or its step has changed since.
Assumption log 28 (DEDUCED). -/
def State.stretches (s : State) : List PtpRun :=
  let new : PtpRun := ⟨s.now, s.ptp.clock.units, s.ptpStepNow⟩
  match s.ptp.runs with
  | r :: _ => if r.step = new.step && decide (r.at_ s.now = s.ptp.clock) then s.ptp.runs else new :: s.ptp.runs
  | [] => [new]

/-- `k` CK_NET cycles of the PTP clock, at the step in force. -/
def State.ptpRun (s : State) (k : Nat) : State :=
  if s.ptpRuns then
    { s with ptp := { s.ptp with clock := ofUnits (s.ptp.clock.units + k * s.ptpStepNow), runs := s.stretches } }
  else s

/-- CK_ARITH cycles passing one by one. -/
def arithRun : Nat → State → State
  | 0, s => s
  | n + 1, s => arithRun n { s.arithTick with now := (s.now / 2 + 1) * 2 }

/-- Whether the grid has anything that a CK_ARITH cycle changes. -/
def Grid.idle (g : Grid) : Bool := g.runs.isEmpty && g.freezes.isEmpty && g.acNow.isEmpty

/-- Lets the clock run to a CK_NET cycle; nothing happens when that cycle has passed.
Assumption log 2 (DESIGN CHOICE). -/
def State.advanceTo (s : State) (due : Nat) : State :=
  if due ≤ s.now then s else
    let s1 := s.ptpRun (due - s.now)
    if s1.grid.idle then { s1 with now := due }
    else State.syncGrid { arithRun (due / 2 - s1.now / 2) s1 with now := due }

/-- Lets the CK_ARITH cycles pass, at most `fuel` of them, until the plan cycle of a run is `n`.
Assumption log 2 (DESIGN CHOICE). -/
def State.runTo (key n : Nat) : Nat → State → State
  | 0, s => s
  | fuel + 1, s =>
    match s.run? key with
    | none => s
    | some r =>
      if r.isOver || (decide (n ≤ r.cycle) && s.runs r) then s
      else State.runTo key n fuel (s.advanceTo ((s.now / 2 + 1) * 2))

/-- Lets the clock run to a plan cycle of a run: the cycles to it and those of the freezes in progress. -/
def State.advancePlan (s : State) (key n : Nat) : State :=
  match s.run? key with
  | none => s
  | some r => State.runTo key n (16 * (n - r.cycle + (r.from_ - s.arith) + 16 * (s.grid.freezes.length + r.awaits.length + 1) + 64)) s

end Sys2Proof.Machine
end

