-- ==== Sys2Proof/Machine/Hold.lean ====
section
/-! DEFINITION. The Hold (R240 to R242): which lines it keeps, which ways it fills and replaces, and what it counts.
The bytes of a line are those of `State.hbm`: every reader and writer meets at the Hold. -/

namespace Sys2Proof.Machine

/-- The address inside a die of an HBM offset (R31). -/
def hbmLocal (off : Nat) : Nat := off % 0x2400000000

/-- The set of a line (R240). -/
def holdSet (line : Nat) : Nat := (line % 2 ^ 15) ^^^ (line / 2 ^ 15 % 2 ^ 15)

/-- The ways in which a class of fills allocates (R241): a mask of 0 acts as 0xFFFF. -/
def State.holdMask (s : State) (die : Nat) (serving : Bool) : Nat :=
  let m := if serving then s.gf (F.MEM_HOLD_CTRL_SERVING_WAYS die) else s.gf (F.MEM_HOLD_CTRL_COMPUTE_WAYS die)
  if m = 0 then 0xFFFF else m

/-- The tree of pseudo-LRU bits followed from a node of `size` ways starting at way `lo`, among allowed ways: bit 0 points
to the lower half. Assumption log 74 (DEDUCED). -/
def plruPick (bitsOf mask : Nat) : Nat → Nat → Nat → Nat
  | 0, _, lo => lo
  | d + 1, node, lo =>
    let half := 2 ^ d
    let low := (mask >>> lo) % 2 ^ half != 0
    let high := (mask >>> (lo + half)) % 2 ^ half != 0
    if low && (!bitsOf.testBit node || !high) then plruPick bitsOf mask d (2 * node + 1) lo
    else plruPick bitsOf mask d (2 * node + 2) (lo + half)

/-- The tree after a use of way `w`: every node on its path points away from it. Assumption log 74 (DEDUCED). -/
def plruUse (w : Nat) : Nat → Nat → Nat → Nat → Nat
  | 0, _, _, b => b
  | d + 1, node, lo, b =>
    let half := 2 ^ d
    if w < lo + half then plruUse w d (2 * node + 1) lo (b ||| 2 ^ node)
    else plruUse w d (2 * node + 2) (lo + half) (b &&& (2 ^ 15 - 1 - 2 ^ node))

/-- MEM_COUNT of a die. -/
def State.memCnt (s : State) (die i : Nat) (k : Nat := 1) : State := s.addCtr 48 (R.MEM_COUNT die i) k

/-- The 64-byte sectors of a line that bytes o to o + n - 1 touch, and those they cover whole. -/
def sectors (o n : Nat) : Nat :=
  (List.range 4).foldl (fun m k => if o < 64 * k + 64 ∧ 64 * k < o + n then m + 2 ^ k else m) 0
def wholeSectors (o n : Nat) : Nat :=
  (List.range 4).foldl (fun m k => if o ≤ 64 * k ∧ 64 * k + 64 ≤ o + n then m + 2 ^ k else m) 0

/-- Dirty sectors of a way. -/
def HoldWay.dirtyCount (w : HoldWay) : Nat := ((List.range 4).filter w.dirty.testBit).length

/-- One request to a line (R241): bytes o to o + n - 1 of it, read or written. Assumption log 74 (DEDUCED). -/
def State.holdLine (s : State) (die line o n : Nat) (isWrite serving : Bool) : State :=
  let key := die * 32768 + holdSet line
  let set := tget (fun _ => {}) s.hold key
  let touch := sectors o n
  let need := if isWrite then touch &&& (0xF ^^^ wholeSectors o n) else touch
  let upd (w : HoldWay) : HoldWay :=
    { w with valid := w.valid ||| touch, dirty := if isWrite then w.dirty ||| touch else w.dirty }
  match set.ways.find? fun (e : Nat × HoldWay) => e.2.line = line with
  | some (k, w) =>
    let s1 := s.memCnt die (if need &&& w.valid = need then 0 else 1)
    { s1 with hold := tins key { ways := tins k (upd w) set.ways, plru := plruUse k 4 0 0 set.plru } s1.hold }
  | none =>
    let mask := s.holdMask die serving
    let k := match (List.range 16).find? fun k => mask.testBit k && (tfind k set.ways).isNone with
      | some k => k
      | none => plruPick set.plru mask 4 0 0
    let out := ((tfind k set.ways).map fun (w : HoldWay) => w.dirtyCount).getD 0
    let s1 := (s.memCnt die 1).memCnt die 2 out
    { s1 with hold := tins key { ways := tins k (upd { line := line }) set.ways, plru := plruUse k 4 0 0 set.plru } s1.hold }

/-- The requests of an access to HBM, line by line. -/
def holdRange (die : Nat) (isWrite serving : Bool) : Nat → Nat → Nat → State → State
  | 0, _, _, s => s
  | fuel + 1, x, n, s =>
    if n = 0 then s else
      let k := min n (256 - x % 256)
      holdRange die isWrite serving fuel (x + k) (n - k) (s.holdLine die (x / 256) (x % 256) k isWrite serving)

/-- An access of `n` bytes at an HBM offset, as the owning Hold sees it (R20). -/
def State.holdTouch (s : State) (off n : Nat) (isWrite serving : Bool) : State :=
  holdRange (hbmDie off) isWrite serving (n / 256 + 2) (hbmLocal off) n s

/-- The first uncorrectable Hold or HBM error is captured while HOLD_UNCORR and HBM_UNCORR are clear (R247). -/
def State.memErrAddr (s : State) (off : Nat) (inHbm : Bool) : State :=
  let d := hbmDie off
  if s.flag (F.MEM_EVENTS_HOLD_UNCORR d) || s.flag (F.MEM_EVENTS_HBM_UNCORR d) then s
  else s.wrN (R.MEM_ERR_ADDR d) (b2n inHbm * 2 ^ 63 + off / 64 * 64)

/-- What the error codes meet when the 64-byte unit at an HBM offset is read (R243, R246): 0 nothing, 1 a Hold sector
corrected, 2 a Hold sector poisoned, 3 an HBM unit corrected, 4 an HBM unit poisoned. -/
def State.memErr (s : State) (off cls : Nat) : State :=
  let d := hbmDie off
  let mark (s : State) : State := { s with hbmPoison := tset noMark s.hbmPoison (off / 64) true }
  if cls = 1 then (s.memCnt d 3).raise (F.MEM_EVENTS_HOLD_CORR d)
  else if cls = 2 then mark (((s.memErrAddr off false).memCnt d 4).raise (F.MEM_EVENTS_HOLD_UNCORR d))
  else if cls = 3 then (s.memCnt d 5).raise (F.MEM_EVENTS_HBM_CORR d)
  else if cls = 4 then mark (((s.memErrAddr off true).memCnt d 6).raise (F.MEM_EVENTS_HBM_UNCORR d))
  else s

/-- Whether a 64-byte unit's line is dirty in the Hold (R246). -/
def State.holdDirty (s : State) (off : Nat) : Bool :=
  let line := hbmLocal off / 256
  (tget (fun _ => {}) s.hold (hbmDie off * 32768 + holdSet line)).ways.any fun (e : Nat × HoldWay) =>
    e.2.line = line && e.2.dirty != 0

end Sys2Proof.Machine
end

