-- ==== Sys2Proof/Machine/Site.lean ====
section
/-! DEFINITION. Side ports (R193, R194): writes and reads of a site's SRAM from outside the schedule, the late writes of
R236, and the exported windows of R32 and R233. -/

namespace Sys2Proof.Machine

/-- The runs that use a site: key and tile. -/
def State.usersOf (s : State) (site : Nat) : List (Nat × Run × Tile) :=
  s.grid.runs.filterMap fun (e : Nat × Run) => (e.2.tile? site).map fun t => (e.1, e.2, t)

/-- Erases whose plan cycle is the one in progress take force before anything else touches the bank in it (R237). -/
def State.eraseDue (s : State) (site : Nat) : State :=
  (s.usersOf site).foldl (fun s (u : Nat × Run × Tile) =>
    if s.runs u.2.1 then s.erases u.1 u.2.1.cycle site u.2.2 else s) s

/-- The banks of a site that are powered down. -/
def State.downBanks (s : State) (site : Nat) : Nat :=
  (s.usersOf site).foldl (fun m (u : Nat × Run × Tile) => m ||| u.2.2.down) 0

/-- The lowest set bit below 16. -/
def lowBit (m : Nat) : Nat := ((List.range 16).find? m.testBit).getD 0

/-- A side-port write dropped at a furled bank (R236, R247): source as in LATE_WRITE_REC.
Assumption log 72 (DEDUCED). -/
def State.lateWrite (s : State) (site row src : Nat) : State :=
  let d := siteDie site
  let s1 := if s.flag (F.MEM_EVENTS_LATE_WRITE d) then s
    else s.wrN (R.MEM_LATE_WRITE_REC d)
      (src * 2 ^ 62 + siteCol site * 2 ^ 40 + siteRow site * 2 ^ 32 + lowBit (s.downBanks site) * 2 ^ 16 + row % 8192)
  s1.note (F.MEM_EVENTS_LATE_WRITE d) (R.MEM_COUNT d 10)

/-- One side-port write performed: consecutive rows from `row`, with nibble enables for all of them, and poison. A
poisoned arrival from outside is counted and recorded (R213). -/
def State.sidePerform (s : State) (site row : Nat) (d : List Byte) (enable : Nat) (poison : Bool) : State :=
  let s0 := s.eraseDue site
  let k := rowLen site
  let s1 := if poison then s0.notePoison site (sramKind site) row else s0
  (List.range (cdiv d.length k)).foldl (fun s i =>
    if row + i < 8192 then
      s.rowWrite site (row + i) (slice d (k * i) k) (bits enable (2 * k * i) (2 * k)) poison
    else s) s1

/-- A write of bytes at a byte offset of a site's SRAM, in aligned 64-byte units (R233): the state after it and whether
some unit was dropped. -/
def sideUnits (site src : Nat) : Nat → Nat → List Byte → Nat → Nat → State → Bool × State
  | 0, _, _, _, _, s => (false, s)
  | fuel + 1, off, d, pz, done_, s =>
    if d.isEmpty then (false, s) else
      let k := min d.length (64 - off % 64)
      let base := off - off % 64
      let row := base / rowLen site
      let poison := (List.range (cdiv (done_ + k) 64)).any fun u => decide (done_ / 64 ≤ u) && pz.testBit u
      let s0 := s.eraseDue site
      let (late, s1) :=
        if s0.downBanks site ≠ 0 then (true, s0.lateWrite site row src)
        else (false, s0.sidePerform site row (List.replicate (off % 64) 0 ++ d.take k ++ List.replicate (64 - off % 64 - k) 0)
          ((2 ^ (2 * k) - 1) * 2 ^ (2 * (off % 64))) poison)
      let (l, s2) := sideUnits site src fuel (off + k) (d.drop k) pz (done_ + k) s1
      (late || l, s2)

/-- The compute run that exports a site, and the mode of the export (R233). -/
def State.exportOf (s : State) (site : Nat) : Nat :=
  match s.run? 0 with
  | some r => if r.isOver || s.inRegion site then 0 else ((r.tile? site).map (·.exported)).getD 0
  | none => 0

/-- Whether an access through a window meets a RESIDENT row of an owner other than the running plan's (R230). -/
def State.windowForeign (s : State) (site off n : Nat) : Bool :=
  let o := ((s.run? 0).map (·.owner)).getD 0
  let k := rowLen site
  (List.range (cdiv (off % k + n) k)).any fun i => s.foreign site (off / k + i) o

/-- A write through an exported window (R233): status and state. `rec` is the source of LATE_WRITE_REC, `src` and
`addr` what a refusal records. -/
def State.siteWrite (s : State) (src rec addr die row col off : Nat) (d : List Byte) (pz : Nat) : Nat × State :=
  let site := siteOf die row col
  if s.exportOf site < 2 ∨ s.windowForeign site off d.length then (stDenied, s.decodeRefuse src deWindow addr)
  else
    let (late, s1) := sideUnits site rec (d.length / 64 + 2) off d pz 0 s
    (if late then stDenied else stOk, s1)

/-- A read through an exported window: status, data, POISON bits and state. A powered-down bank ends it in an error
completion with poisoned data (R236). -/
def State.siteRead (s : State) (src addr die row col off n : Nat) : Nat × List Byte × Nat × State :=
  let site := siteOf die row col
  if s.exportOf site < 1 ∨ s.windowForeign site off n then
    (stDenied, List.replicate n 0, 0xF, s.decodeRefuse src deWindow addr)
  else
    let s1 := s.eraseDue site
    if s1.downBanks site ≠ 0 then (stDenied, List.replicate n 0, 0xF, s1)
    else
      let k := rowLen site
      let rows := (List.range (cdiv (off % k + n) k)).map fun i => off / k + i
      let d := slice (rows.flatMap fun r => s1.rowRead site r) (off % k) n
      let pz := (List.range (cdiv n 64)).foldl (fun a u =>
        let lo := (off + 64 * u) / k
        let hi := (off + min n (64 * u + 64) - 1) / k
        if (List.range (hi + 1 - lo)).any fun i => s1.rowMark site (lo + i) then a + 2 ^ u else a) 0
      (stOk, d, pz, s1)

end Sys2Proof.Machine
end

