-- ==== Sys2Proof/Machine/Rigging.lean ====
section
/-! DEFINITION. The Rigging's transmit side: packets and their end-to-end tag (R326, R329), routing (R331, R332), the
link layer's queues, credits and replay buffer (R323 to R325), outstanding operations (R336), and reads and writes of
global addresses by the module's own engines. -/

namespace Sys2Proof.Machine

/-- One Rigging port's engine. -/
def State.rigPort (s : State) (n : Nat) : RigPort := tget (fun _ => {}) s.rig.ports n
/-- Changes one Rigging port's engine. -/
def State.modRig (s : State) (n : Nat) (f : RigPort → RigPort) : State :=
  { s with rig := { s.rig with ports := tmod (fun _ => {}) s.rig.ports n f } }

/-- LINK_STATE encodings (Table 12.3). -/
abbrev lsOff : Nat := 0
abbrev lsTraining : Nat := 1
abbrev lsAttesting : Nat := 2
abbrev lsUp : Nat := 3
abbrev lsDown : Nat := 4
abbrev lsMiswired : Nat := 5
abbrev lsEncMismatch : Nat := 6
abbrev lsAttestFailed : Nat := 7

/-- Opcodes (Table 12.5). -/
abbrev opRead : Nat := 1
abbrev opWrite : Nat := 2
abbrev opAdd : Nat := 3
abbrev opUmax : Nat := 4
abbrev opSmax : Nat := 5
abbrev opCas : Nat := 6
abbrev opReduce : Nat := 7
abbrev opDoorbell : Nat := 8
abbrev opResponse : Nat := 0x10

/-- Header bytes 0 to 23 (Table 12.4), over which and the payload the end-to-end tag runs (R329). -/
def Pkt.tagBytes (p : Pkt) : List Byte :=
  leBytes 1 p.opcode ++ leBytes 1 p.flags ++ leBytes 2 p.length ++ leBytes 2 (p.source.toNat + p.srcDie * 4096) ++
  leBytes 2 p.dst.toNat ++ leBytes 8 p.address.toNat ++ leBytes 4 p.txn ++ leBytes 4 p.aux

/-- The end-to-end tag a packet should carry (R329). -/
def Pkt.e2eTag (p : Pkt) : Nat := crc32c (p.tagBytes ++ p.payload)

/-- A packet with its end-to-end tag. -/
def Pkt.sealed (p : Pkt) : Pkt := { p with e2e := p.e2eTag }

/-- Credits a packet needs (R325): its wire length with link check, and GCM tag when encrypted, in units of 64 bytes. -/
def Pkt.credits (p : Pkt) (enc : Bool) : Nat := cdiv (32 + p.payload.length + 4 + (if enc then 16 else 0)) 64

/-- The ports in UP, as a mask. -/
def State.upMask (s : State) : Nat :=
  (List.range 32).foldl (fun m n => if s.gf (F.RIGP_STATUS_LINK_STATE n) = lsUp then m + 2 ^ n else m) 0

/-- The numbers of the set bits of a mask, below 32. -/
def maskBits (m : Nat) : List Nat := (List.range 32).filter m.testBit

/-- Whether an issuer's traffic leaves only through ports 0 to 15 (R22, R331). -/
def Issuer.bowsprit : Issuer → Bool
  | .ringDma _ => true
  | .missEngine _ => true
  | .updateEngine _ _ => true
  | _ => false

/-- Whether an issuer sets SERVING (R358). -/
def Issuer.serving : Issuer → Bool := Issuer.bowsprit

/-- The routing of R331 to module `d` with the masks of a ROUTE entry: the port, if one is eligible. -/
def routePort (entry up reach addr : Nat) : Option Nat :=
  let p := bits addr 12 32
  let h := (p ^^^ (p >>> 10) ^^^ (p >>> 20)) % 1024
  let pick (m : Nat) : Option Nat :=
    let l := maskBits (m &&& up &&& reach)
    if l.isEmpty then none else l[h % l.length]?
  match pick (bits entry 0 32) with
  | some n => some n
  | none => pick (bits entry 32 32)

/-- The ROUTE entry that serving-path traffic and other traffic use (R331, R407: the serving epoch selects a
SERVE_ROUTE bank for accesses of the feature-cache miss engine and the update engine). -/
def State.routeEntry (s : State) (serveBank : Option Nat) (d : Nat) : Nat :=
  match serveBank with
  | some b => (s.rd (R.REC_SERVE_ROUTE (b % 2) d)).toNat
  | none => (s.rd (R.RIG_ROUTE d)).toNat

/-- R332: the port an issuer's outstanding operation to the same 4 KiB page of the same module went out on. -/
def State.pinnedPort (s : State) (iss : Issuer) (addr : Nat) : Option Nat :=
  (s.rig.ops.find? fun e =>
    e.2.issuer == iss && decide (e.2.pkt.address.toNat % 2 ^ 56 / 4096 = addr / 4096)).map fun e => e.2.port

/-- Sends the packets of a port's queues that credit, replay space and R325's order let go (the model sends a packet in
the cycle in which it may go). -/
def pumpPort (share : Nat) (enc : Bool) : Nat → RigPort → RigPort × List Pkt
  | 0, r => (r, [])
  | fuel + 1, r =>
    if r.replay.length ≥ 1024 then (r, []) else
    let go (p : Pkt) (r' : RigPort) : RigPort × List Pkt :=
      let p' := { p with linkSeq := r.txSeq % 4096 }
      let (r'', out) := pumpPort share enc fuel { r' with txSeq := (r.txSeq + 1) % 4096, replay := r.replay ++ [p'] }
      (r'', p' :: out)
    let ready (q : List Pkt) (c : Nat) : Option Pkt :=
      match q with
      | p :: _ => if p.credits enc ≤ c then some p else none
      | [] => none
    match ready r.q2 r.cred2 with
    | some p => go p { r with q2 := r.q2.drop 1, cred2 := r.cred2 - p.credits enc }
    | none =>
      match ready r.q0 r.cred0, ready r.q1 r.cred1 with
      | some p, none => go p { r with q0 := r.q0.drop 1, cred0 := r.cred0 - p.credits enc }
      | none, some p => go p { r with q1 := r.q1.drop 1, cred1 := r.cred1 - p.credits enc }
      | some p, some q =>
        let c := (r.choice + 1) % 16
        if r.choice < share then
          go q { r with q1 := r.q1.drop 1, cred1 := r.cred1 - q.credits enc, choice := c }
        else go p { r with q0 := r.q0.drop 1, cred0 := r.cred0 - p.credits enc, choice := c }
      | none, none => (r, [])

/-- The 32 header bytes as sent (Table 12.4). -/
def Pkt.header (p : Pkt) : List Byte :=
  p.tagBytes ++ leBytes 4 p.e2e ++ leBytes 2 (p.linkSeq % 4096 + p.vc % 4 * 4096) ++ leBytes 2 0

/-- The next key generation of a direction (R430). Assumption log 101 (DEDUCED). -/
def Crypt.next (c : Crypt) : Crypt :=
  let g := c.gen + 1
  { c with
    gen := g
    key := (Config.hkdf c.key [] ([0x59, 0x52, 0x20, 0x72, 0x65, 0x6B, 0x65, 0x79] ++ beBytes 8 g) 32) }

/-- Whether a direction's count has passed into a further key generation. -/
def Crypt.due (c : Crypt) : Bool := decide (c.gen < c.count / 2 ^ 40)

/-- A packet as it crosses the link (R322, R355): header, payload, GCM tag on an encrypted link, link check.
Assumption log 101 (DEDUCED). -/
def Pkt.wire (p : Pkt) (enc : Bool) (c : Crypt) : List Byte :=
  if enc then
    let (ct, tag) := Config.gcmSeal c.key (c.salt ++ beBytes 8 c.count) p.header p.payload
    p.header ++ ct ++ tag ++ leBytes 4 (crc32c (p.header ++ ct))
  else p.header ++ p.payload ++ leBytes 4 (crc32c (p.header ++ p.payload))

/-- A direction changes key generation when its count has come to one (R430), counted in REKEYS.
Assumption log 101 (DEDUCED). -/
def State.rekey (s : State) (n : Nat) (isTx : Bool) : State :=
  let r := s.rigPort n
  if (if isTx then r.tx.due else r.rx.due) then
    (s.modRig n fun r => if isTx then { r with tx := r.tx.next } else { r with rx := r.rx.next }).addCtr 48 (R.SEC_COUNT 5) 1
  else s

/-- A packet crosses a link in one direction: on an encrypted link the direction's count rises (R355, R430). -/
def State.crossed (s : State) (n : Nat) (isTx : Bool) : State :=
  if s.flag (F.RIGP_CFG_ENC n) then
    s.modRig n fun r =>
      if isTx then { r with tx := { r.tx with count := r.tx.count + 1 } }
      else { r with rx := { r.rx with count := r.rx.count + 1 } }
  else s

/-- A request or response packet is sent, or re-sent, on a port. -/
def State.sendWire (s : State) (n : Nat) (p : Pkt) : State :=
  let enc := s.flag (F.RIGP_CFG_ENC n)
  let s0 := if enc then s.rekey n true else s
  ((((s0.emit (.packet n p (p.wire enc (s0.rigPort n).tx))).crossed n true).cnt (R.RIGP_COUNT n 0)).addCtr 48
    (R.RIGP_COUNT n 2) p.payload.length)

/-- A link control packet is sent (R323, R325). Assumption log 108 (DEDUCED). -/
def State.sendCtl (s : State) (n opcode aux : Nat) : State :=
  let enc := s.flag (F.RIGP_CFG_ENC n)
  let s0 := if enc then s.rekey n true else s
  (s0.emit (.linkCtl n opcode aux)).crossed n true

/-- CK_MEM cycles that a VC has waited for credit, and whether it waits now (R357). -/
def stallOf (q : List Pkt) (cred now : Nat) (enc : Bool) (was : Option Nat) : Nat × Option Nat :=
  let waits := match q with
    | p :: _ => decide (cred < p.credits enc)
    | [] => false
  match was with
  | none => (0, if waits then some now else none)
  | some t => ((now - t) / 4, if waits then some now else none)

/-- The stall counters of a port follow its queues (Table 12.30). Assumption log 98 (DEDUCED). -/
def State.syncStall (s : State) (n : Nat) : State :=
  let r := s.rigPort n
  let enc := s.flag (F.RIGP_CFG_ENC n)
  let (k0, t0) := stallOf r.q0 r.cred0 s.now enc r.stall0
  let (k1, t1) := stallOf r.q1 r.cred1 s.now enc r.stall1
  let (k2, t2) := stallOf r.q2 r.cred2 s.now enc r.stall2
  (((s.modRig n fun r => { r with stall0 := t0, stall1 := t1, stall2 := t2 }).addCtr 48 (R.RIGP_COUNT n 10) k0).addCtr 48
    (R.RIGP_COUNT n 11) k1).addCtr 48 (R.RIGP_COUNT n 12) k2

/-- CK_MEM cycles of a wait in progress that the counter of a VC does not hold yet (R357); `k` is 0 to 2.
Assumption log 98 (DEDUCED). -/
def State.stalling (s : State) (n k : Nat) : Nat :=
  let r := s.rigPort n
  match if k = 0 then r.stall0 else if k = 1 then r.stall1 else r.stall2 with
  | some t => (s.now - t) / 4
  | none => 0

/-- SERVING_SHARE as it acts (R325, Table 12.15). -/
def State.servingShare (s : State) : Nat := max 1 (s.gf F.RIG_CTRL_SERVING_SHARE)

/-- RIG_TIMEOUT of an operation counts from the sending of its request (R336). Assumption log 97 (DEDUCED). -/
def State.requestSent (s : State) (p : Pkt) : State :=
  if p.opcode = opResponse then s else
  match tfind p.txn s.rig.ops with
  | some o => { s with rig := { s.rig with
      ops := tins p.txn { o with sentAt := s.now, limit := s.now + 32 * max 75 (s.gf F.RIG_TIMEOUT_TICKS) } s.rig.ops } }
  | none => s

/-- Sends what a port may send now, counting packets and payload (Table 12.30), and reports REPLAY_OCC.
Assumption log 98 (DEDUCED). -/
def State.pump (s : State) (n : Nat) : State :=
  if s.gf (F.RIGP_STATUS_LINK_STATE n) ≠ lsUp then s else
  let r := s.rigPort n
  let (r', sent) := pumpPort s.servingShare (s.flag (F.RIGP_CFG_ENC n)) (r.q0.length + r.q1.length + r.q2.length) r
  let s1 := s.modRig n fun _ => if r.replay.isEmpty && !sent.isEmpty then { r' with advAt := s.now } else r'
  let s2 := sent.foldl (fun s p => (s.requestSent p).sendWire n p) s1
  (s2.sf (F.RIGP_STATUS_REPLAY_OCC n) r'.replay.length).syncStall n

/-- Puts a packet into a port's transmit queue for its VC (R322) and sends what may go. -/
def State.enqueue (s : State) (n : Nat) (p : Pkt) : State :=
  let vc := if p.opcode = opResponse then 2 else if p.flags.testBit 2 then 1 else 0
  let p := { p with vc := vc }
  (s.modRig n fun r =>
    if vc = 0 then { r with q0 := r.q0 ++ [p] }
    else if vc = 1 then { r with q1 := r.q1 ++ [p] }
    else { r with q2 := r.q2 ++ [p] }).pump n

/-- Table 12.24 indices. -/
def State.rigCnt (s : State) (i : Nat) : State := s.cnt (R.RIG_COUNT i)

/-- An operation of this module that ends in one of the statuses RIG_ERR_REC records (R360): captured while the four
bits are clear; then the event and its counter. Assumption log 107 (DEDUCED). -/
def State.opError (s : State) (status addr : Nat) : State :=
  let clear := !s.flag F.RIG_EVENTS_TIMEOUT && !s.flag F.RIG_EVENTS_LINK_LOST && !s.flag F.RIG_EVENTS_E2E_ERROR &&
    !s.flag F.RIG_EVENTS_UNREACHABLE
  let rec_ := decide (status = stTimeout) || decide (status = stLinkLost) || decide (status = stUnreachable) ||
    decide (status = stE2e)
  let s1 := if clear && rec_ then (s.wrN R.RIG_ERR_REC (addr % 2 ^ 56)).sf F.RIG_ERR_REC_STATUS status else s
  if status = stTimeout then (s1.rigCnt 3).raise F.RIG_EVENTS_TIMEOUT
  else if status = stLinkLost then (s1.rigCnt 2).raise F.RIG_EVENTS_LINK_LOST
  else if status = stUnreachable then (s1.rigCnt 5).raise F.RIG_EVENTS_UNREACHABLE
  else if status = stE2e then (s1.rigCnt 6).raise F.RIG_EVENTS_E2E_ERROR
  else s1

/-- Ends an operation for its issuer with a status, data and POISON bits; the issuer's own command takes it up, where it
has one. `addr` and `sent` are the address and payload of its request. -/
def State.endFor (s : State) (iss : Issuer) (status : Nat) (data : List Byte) (poison : Nat) (addr : Nat := 0)
    (sent : List Byte := []) : State :=
  match iss with
  | .responder => s
  | .ringDma _ => s
  | .reduction _ => s
  | .mgmt => s
  | .job => s
  | .copy => { s with recov := { s.recov with
      checkpoint := s.recov.checkpoint.map fun c => { c with left := c.left - 1, failed := c.failed || status != stOk } } }
  | _ => { s with rig := { s.rig with ended := s.rig.ended ++ [⟨iss, status, data, poison, addr, sent⟩] } }

/-- What an issuer's ended operation returned, taken off the list (none: an error or poisoned data); `ext` where no
operation of the model has ended for it. -/
def State.takeEnded (s : State) (iss : Issuer) (ext : Option (List Byte)) : Option (List Byte) × State :=
  match s.rig.ended.find? fun e => e.issuer == iss with
  | none => (ext, s)
  | some e =>
    (if e.status = stOk ∧ e.poison = 0 then some e.data else none,
     { s with rig := { s.rig with ended := s.rig.ended.erase e } })

/-- OUTSTANDING follows the table of operations. -/
def State.syncOps (s : State) : State := s.sf F.RIG_OUTSTANDING_OPS s.rig.ops.length

/-- The port a request packet goes out on (R331, R332), none when no port leads there. -/
def State.issuePort (s : State) (iss : Issuer) (addr : Nat) (bank : Option Nat) : Option Nat :=
  let reach := if iss.bowsprit then 0xFFFF else 0xFFFFFFFF
  let routed := routePort (s.routeEntry bank (gModule addr)) s.upMask reach addr
  match s.pinnedPort iss (addr % 2 ^ 56) with
  | some n => if s.gf (F.RIGP_STATUS_LINK_STATE n) = lsUp then some n else routed
  | none => routed

/-- The C-die a request names as its source (Table 12.4): the issuing die, and the die of the chosen port where the
issuer lies on no C-die (R22, R318). Assumption log 97 (DEDUCED). -/
def Issuer.sourceDie (iss : Issuer) (die port : Nat) : Nat :=
  match iss with
  | .dma _ _ => die
  | .reduction _ => die
  | _ => port / 8

/-- Whether an operation of an issuer that routes to port `n` finds room: the protocol engine of its C-die tracks up to
16,384 operations (R336), a VC of a port queues up to 256 packets (R357), and no earlier operation of the issuer waits.
Assumption log 97 (DEDUCED). -/
def State.hasRoom (s : State) (iss : Issuer) (die n : Nat) : Bool :=
  let r := s.rigPort n
  decide ((s.rig.ops.filter fun e => decide (e.2.pkt.srcDie = iss.sourceDie die n)).length < 16384) &&
  decide ((if iss.serving then r.q1 else r.q0).length < 256) &&
  !(s.rig.waiting.any fun w => w.issuer == iss)

/-- Issues one request packet to another module (R331, R336): routed, tracked, tagged and queued, or ended with
UNREACHABLE; it waits where there is no room. `bank` is the SERVE_ROUTE bank for serving traffic (R407).
Assumption log 97 (DEDUCED). -/
def State.issue (s : State) (iss : Issuer) (die opcode addr len aux flags : Nat) (payload : List Byte)
    (bank : Option Nat := none) : State :=
  let d := gModule addr
  match s.issuePort iss addr bank with
  | none => (s.opError stUnreachable addr).endFor iss stUnreachable [] 0 addr payload
  | some n =>
    if !s.hasRoom iss die n then
      { s with rig := { s.rig with
        waiting := s.rig.waiting ++ [⟨iss, die, opcode, addr, len, aux, flags, payload, bank⟩] } }
    else
    let t := s.rig.nextTxn
    let p : Pkt := Pkt.sealed
      { opcode := opcode, flags := flags ||| (if iss.serving then 4 else 0), length := len,
        source := BitVec.ofNat 12 s.modnum, srcDie := iss.sourceDie die n, dst := BitVec.ofNat 12 d,
        address := BitVec.ofNat 64 addr, txn := t, aux := aux, payload := payload }
    let op : OutOp := ⟨p, iss, n, s.now, s.now + 32 * max 75 (s.gf F.RIG_TIMEOUT_TICKS), bank⟩
    let s1 := { s with rig := { s.rig with nextTxn := (t + 1) % 2 ^ 32, ops := tins t op s.rig.ops } }
    (((s1.syncOps).rigCnt 0).enqueue n p)

/-- The operations that wait are issued where there is room now, oldest first (R336, R357).
Assumption log 97 (DEDUCED). -/
def State.issueWaiting (s : State) : State :=
  s.rig.waiting.foldl (fun s w => s.issue w.issuer w.die w.opcode w.addr w.len w.aux w.flags w.payload w.bank)
    { s with rig := { s.rig with waiting := [] } }

/-- The 256-byte pieces of an access (R327: a READ or WRITE does not cross a 256-byte boundary). -/
def pieces : Nat → Nat → Nat → List (Nat × Nat)
  | 0, _, _ => []
  | fuel + 1, a, n =>
    if n = 0 then [] else
      let k := min n (256 - a % 256)
      (a, k) :: pieces fuel (a + k) (n - k)

/-- Whether a module number is the module's own: its number, or a number it has adopted (R29, R403).
Assumption log 104 (DEDUCED). -/
def State.isOwn (s : State) (m : Nat) : Bool :=
  decide (m = s.modnum) || (s.flag F.REC_ALIAS_VALID && decide (m = s.gf F.REC_ALIAS_NUMBER))

/-- Whether the Hold takes a requester's accesses as serving (R241: the Bowsprit's). -/
def srcServing : Src → Bool
  | .bowsprit => true
  | _ => false

/-- SOURCE of LATE_WRITE_REC for a requester (Table 8.12). -/
def srcLate : Src → Nat
  | .strand _ => 0
  | .rigging _ => 1
  | _ => 2

/-- A write of a global address inside the module: the status and the state after it (R30, R36). `src` is the
requester's SOURCE. -/
def State.localWrite (s : State) (src : Src) (addr : Nat) (d : List Byte) (pz : Nat)
    (serving : Bool := srcServing src) : Nat × State :=
  match placeOf (gOff addr) with
  | .hbm off => (stOk, (s.holdTouch off d.length true serving).hbmWrite off d pz)
  | .site die row col off => s.siteWrite (srcCode src) (srcLate src) addr die row col off d pz
  | .ctl _ => (stDenied, s.decodeRefuse (srcCode src) deStrand addr)
  | .unmapped => (stUnmapped, s.decodeRefuse (srcCode src) deUnmapped addr)

/-- A read of a global address inside the module by an engine: status, data, POISON bits, state (R36: a refused read
returns poisoned data). -/
def State.localRead (s : State) (src : Src) (addr n : Nat) (serving : Bool := srcServing src) :
    Nat × List Byte × Nat × State :=
  match placeOf (gOff addr) with
  | .hbm off => (stOk, s.hbmRead off n, s.hbmPoisonBits off n, s.holdTouch off n false serving)
  | .site die row col off => s.siteRead (srcCode src) addr die row col off n
  | .ctl _ => (stDenied, List.replicate n 0, 0xF, s.decodeRefuse (srcCode src) deStrand addr)
  | .unmapped => (stUnmapped, List.replicate n 0, 0xF, s.decodeRefuse (srcCode src) deUnmapped addr)

/-- POISON bits of `n` payload bytes that begin at byte `lo` of data whose bytes `bad` lie in poisoned units (R330). -/
def poisonBits (bad : List Nat) (lo n : Nat) : Nat :=
  (List.range (cdiv n 64)).foldl (fun m u =>
    if bad.any fun x => decide (lo + 64 * u ≤ x) && decide (x < lo + min n (64 * u + 64)) then m + 2 ^ u else m) 0

/-- A write by one of the Bowsprit's engines to host memory or a global address (R78, R22), `bad` the bytes of it that
lie in poisoned units: poison goes on as POISON (R330) or in a TLP with EP set (R418). -/
def State.dmaWrite (s : State) (iss : Issuer) (a : Nat) (d : List Byte) (rel : Bool := false) (bad : List Nat := []) :
    State :=
  match target a with
  | .host h => s.emit (.hostWrite h d (poisonBits bad 0 d.length))
  | .global g =>
    if s.isOwn (gModule g) then (s.localWrite .bowsprit g d (poisonBits bad 0 d.length)).2
    else (pieces (d.length + 1) g d.length).foldl (fun s (pc : Nat × Nat) =>
      s.issue iss 0 opWrite pc.1 pc.2 0 ((if rel then 2 else 0) + 16 * poisonBits bad (pc.1 - g) pc.2)
        (slice d (pc.1 - g) pc.2)
        (if iss.bowsprit then some (s.gf F.REC_SERVE_EPOCH_EPOCH) else none)) s

/-- A read by one of the Bowsprit's engines: data of the module's own memory, or `ext`, what the host or the other
module returned (none: the read ended in an error completion or poisoned data). -/
def State.dmaRead (s : State) (a n : Nat) (ext : Option (List Byte)) : Option (List Byte) × State :=
  match target a with
  | .host _ => (ext.map fun l => slice l 0 n, s)
  | .global g =>
    if s.isOwn (gModule g) then
      let (st, d, pz, s1) := s.localRead .bowsprit g n
      (if st = stOk ∧ pz = 0 then some d else none, s1)
    else (ext.map fun l => slice l 0 n, s)

end Sys2Proof.Machine
end

