-- ==== Sys2Proof/Machine/Eth.lean ====
section
/-! DEFINITION. Ethernet ports (spec ch. 2): counters, the PTP clock, the receive filters, pauses, the transmit
arbiter, and the meanings of the port commands that touch no ring. -/

namespace Sys2Proof.Machine

/-! ### Counters -/

/-- The compatibility counters that count the events of native counter `i` (Table 2.6), by offset. -/
def compatOf (i : Nat) : List Nat :=
  match i with
  | 20 => [0x00, 0x08]
  | 21 => [0x00, 0x0C]
  | 22 => [0x00, 0x10]
  | 23 => [0x14]
  | 24 => [0x14]
  | 25 => [0x2C]
  | 26 => [0x30]
  | 28 => [0x38, 0x40]
  | 29 => [0x38, 0x44]
  | 30 => [0x38, 0x48]
  | 31 => [0x4C]
  | 32 => [0x4C]
  | 33 => [0x50]
  | 35 => [0x18]
  | 36 => [0x1C]
  | 37 => [0x20]
  | 38 => [0x24]
  | 39 => [0x5C]
  | 40 => [0x28]
  | 41 => [0x28]
  | 42 => [0x34]
  | 43 => [0x04]
  | 44 => [0x3C]
  | 48 => [0x58]
  | 49 => [0x58]
  | 50 => [0x54]
  | _ => []

/-- Adds to a compatibility counter, saturating (R73). -/
def State.compatAdd (s : State) (p off k : Nat) : State :=
  let o := 0x700000 + p * 0x100 + off
  s.wrN o (min 0xFFFFFFFF ((s.rd o).toNat + k))

/-- Adds to native counter `i` of port `p` (R69, R71) and to the compatibility counters that follow it (R73). -/
def State.ethCnt (s : State) (p i : Nat) (k : Nat := 1) : State :=
  let o := R.ETH_COUNTER p i
  let old := (s.rd o).toNat
  let new := (old + k) % 2 ^ 40
  let s1 := s.wrN o new
  let s2 := if !old.testBit 39 && new.testBit 39 then s1.raiseMask (R.ETH_HALF_STATUS p) (2 ^ i) else s1
  (compatOf i).foldl (fun s c => s.compatAdd p c k) s2

/-- Size bucket of a frame length (Table 2.5). -/
def sizeBucket (n : Nat) : Nat :=
  if n ≤ 64 then 0 else if n ≤ 127 then 1 else if n ≤ 255 then 2 else if n ≤ 511 then 3 else if n ≤ 1023 then 4
  else if n ≤ 1518 then 5 else if n ≤ 2047 then 6 else if n ≤ 4095 then 7 else if n ≤ 9216 then 8 else 9

/-! ### The PTP clock -/

/-- The clock `k` CK_NET cycles ago, by the stretch it was in; a change takes effect after its cycle.
Assumption log 28 (DEDUCED). -/
def State.clockAgo (s : State) (k : Nat) : Instant :=
  if k = 0 then s.ptp.clock else
    match s.ptp.runs.find? fun r => decide (r.from_ < s.now - k) with
    | some r => r.at_ (s.now - k)
    | none =>
      match s.ptp.runs.getLast? with
      | some r => r.at_ (s.now - k)
      | none => s.ptp.clock.shift (-(k * s.ptpStepNow : Nat))

/-- Picoseconds as clock units, truncated towards minus infinity. -/
def psUnits (ps : Int) : Int := ps * (nsUnits : Int) / 1000

/-- A receive stamp for a first byte that crossed `k` cycles ago (R67). Assumption log 28 (DEDUCED). -/
def State.rxStamp (s : State) (p k : Nat) : Instant :=
  (s.clockAgo k).shift (psUnits (sgn 16 (s.gf (F.ETH_TS_CORR_RX_CORR_PS p))))

/-- A transmit stamp for a first byte that crosses now (R67). -/
def State.txStamp (s : State) (p : Nat) : Instant :=
  s.ptp.clock.shift (psUnits (sgn 16 (s.gf (F.ETH_TS_CORR_TX_CORR_PS p))))

/-- The 16 bits of fraction that stamps and PTP_FRAC show. -/
def Instant.frac16 (t : Instant) : Nat := t.frac / 2 ^ 32

/-- Bytes 16 to 27 of a descriptor: STAMP_FRAC, STAMP_NS, STAMP_SEC (Table 3.2). -/
def Instant.bytes (t : Instant) : List Byte := leBytes 2 t.frac16 ++ leBytes 4 t.ns ++ leBytes 6 t.sec

/-- The PTP latch of a requester (R76). -/
def State.ptpLatch (s : State) (k : Nat) : PtpLatch := tget (fun _ => {}) s.ptp.latches k

/-- R76: a read of PTP_NS returns the nanoseconds and loads the requester's latch. -/
def State.ptpReadNs (s : State) (k : Nat) : Nat × State :=
  let c := s.ptp.clock
  (c.ns, { s with ptp := { s.ptp with latches := tset (fun _ => {}) s.ptp.latches k ⟨c.frac16, c.sec⟩ } })

/-- R76: a write to PTP_SEC stages the seconds. -/
def State.ptpStage (s : State) (v : Nat) : State := { s with ptp := { s.ptp with staged := v % 2 ^ 48 } }

/-- R76: a write to PTP_NS sets the clock, or is ignored above 999,999,999. -/
def State.ptpSet (s : State) (v : Nat) : State :=
  if v % 2 ^ 32 > 999999999 then s
  else { s with ptp := { s.ptp with clock := { sec := s.ptp.staged, ns := v % 2 ^ 32, frac := 0 } } }

/-- R76: a write to PTP_STEP adds its signed nanoseconds, the hidden bits unchanged (R66). -/
def State.ptpAdjust (s : State) (v : Nat) : State :=
  { s with ptp := { s.ptp with clock := s.ptp.clock.shift (sgn 32 v * (nsUnits : Int)) } }

/-! ### Frames -/

/-- What the MAC reads of a frame (R54, R55). -/
structure FrameInfo where
  dst : Nat
  tagged : Bool
  prio : Nat
  etype : Nat
  /-- frame offset of the first byte after the EtherType -/
  body : Nat
  deriving DecidableEq, Repr

/-- R55: one C-tag is read; an untagged frame's priority is DEFAULT_PRI. -/
def State.frameInfo (s : State) (p : Nat) (b : List Byte) : FrameInfo :=
  if beAt b 12 2 = 0x8100 then
    { dst := beAt b 0 6, tagged := true, prio := bits (beAt b 14 2) 13 3, etype := beAt b 16 2, body := 18 }
  else
    { dst := beAt b 0 6, tagged := false, prio := s.gf (F.ETH_PORT_CTRL_DEFAULT_PRI p), etype := beAt b 12 2, body := 14 }

/-- Hash bin of a group address (R52). -/
def hashBin (b : List Byte) : Nat := bits (crc32 (slice b 0 6)) 23 9

/-- Group address: bit 0 of the first byte set. -/
def isGroup (dst : Nat) : Bool := dst.testBit 40
/-- The broadcast address. -/
def bcast : Nat := 0xFFFFFFFFFFFF

/-- The destination filter (R51). -/
def State.destOk (s : State) (p : Nat) (i : FrameInfo) (b : List Byte) : Bool :=
  s.flag (F.ETH_PORT_CTRL_PROMISC p) ||
  (decide (i.dst = 0x0180C2000001) && decide (i.etype = 0x8808)) ||
  (!isGroup i.dst && (List.range 16).any fun k =>
    s.flag (F.ETH_UCAST_VALID p k) && decide (s.gf (F.ETH_UCAST_ADDRESS p k) = i.dst)) ||
  (decide (i.dst = bcast) && s.flag (F.ETH_PORT_CTRL_BCAST_ACCEPT p)) ||
  (isGroup i.dst && decide (i.dst ≠ bcast) &&
    (s.gf (F.ETH_GHASH_BINS p (hashBin b / 32))).testBit (hashBin b % 32))

/-- The EtherType filter (R54), and the MAC control opcodes (R53). -/
def State.etypeOk (s : State) (p : Nat) (i : FrameInfo) (b : List Byte) : Bool :=
  decide (0x600 ≤ i.etype) &&
  (decide (i.etype = 0x0800) || decide (i.etype = 0x86DD) ||
   (decide (i.etype = 0x8808) && (decide (beAt b i.body 2 = 1) || decide (beAt b i.body 2 = 0x101))) ||
   (decide (i.etype ≠ 0x8808) && s.flag F.HLY_CTRL_ETYPE_EN && decide (i.etype = s.gf F.HLY_ETYPE_ETYPE)) ||
   (decide (i.etype ≠ 0x8808) && (List.range 8).any fun k =>
      s.flag (F.ETH_ETYPE_ACCEPT_VALID p k) && decide (s.gf (F.ETH_ETYPE_ACCEPT_ETYPE p k) = i.etype)))

/-- Whether the FCS that ends a frame matches: the IEEE 802.3 CRC-32, its low byte first.
Assumption log 10 (PRESUMED). -/
def fcsOk (b : List Byte) : Bool :=
  decide (crc32 (b.take (b.length - 4)) = leNat (b.drop (b.length - 4)))

/-- MAX_FRAME as it acts (Table 2.10). -/
def State.maxFrame (s : State) (p : Nat) : Nat := min 16384 (max 1518 (s.gf (F.ETH_MAX_FRAME_MAX_FRAME p)))

/-- Drop causes as native counter indices (Tables 2.2, 2.4). -/
abbrev dcFcs : Nat := 35
abbrev dcRunt : Nat := 36
abbrev dcOversize : Nat := 37
abbrev dcPcs : Nat := 38
abbrev dcReasm : Nat := 39
abbrev dcDest : Nat := 40
abbrev dcEtype : Nat := 41
abbrev dcHalyard : Nat := 42

/-- The highest-placed cause of Table 2.2 that drops a frame, HALYARD apart. -/
def State.macDrop (s : State) (p : Nat) (b : List Byte) (phyErr reasmErr : Bool) : Option Nat :=
  let i := s.frameInfo p b
  if phyErr then some dcPcs
  else if reasmErr then some dcReasm
  else if b.length < 64 then some dcRunt
  else if s.maxFrame p < b.length then some dcOversize
  else if !fcsOk b then some dcFcs
  else if !s.destOk p i b then some dcDest
  else if !s.etypeOk p i b then some dcEtype
  else none

/-- The receive counters of an accepted frame (R69, Table 2.4), Halyard kinds apart. -/
def State.countAccepted (s : State) (p : Nat) (b : List Byte) : State :=
  let i := s.frameInfo p b
  let s1 := (s.ethCnt p (sizeBucket b.length)).ethCnt p 43 b.length
  let s2 := s1.ethCnt p (if i.dst = bcast then 22 else if isGroup i.dst then 21 else 20)
  if i.etype = 0x8808 then s2.ethCnt p (if beAt b i.body 2 = 1 then 23 else 24) else s2

/-! ### Pauses -/

/-- SPEED as a multiple of a 400 Gb/s quantum: 1, 2 or 4. -/
def State.speedMul (s : State) (p : Nat) : Nat :=
  match s.gf (F.ETH_PORT_CTRL_SPEED p) with
  | 1 => 2
  | 2 => 4
  | _ => 1

/-- 2,000 times the cycles a byte takes at a port's rate: ρ = N · mul / 2000 (R173). -/
def State.rho2000 (s : State) (p : Nat) : Nat := s.divN * s.speedMul p

/-- Cycles from a frame's first byte to its byte `k` (R173). -/
def State.crossAfter (s : State) (p k : Nat) : Nat := s.rho2000 p * k / 2000

/-- CK_NET cycles of a pause of `q` quanta of 512 bit times, rounded up (R62): a quantum is 0.032 N cycles at 400 Gb/s. -/
def State.quantaCycles (s : State) (p q : Nat) : Nat := cdiv (q * 32 * s.divN * s.speedMul p) 1000

/-- FC_MODE, with the reserved value acting as none. -/
def State.fcMode (s : State) (p : Nat) : Nat :=
  let m := s.gf (F.ETH_PORT_CTRL_FC_MODE p)
  if m = 3 then 0 else m

/-- The end cycle of the PFC pause on priority `q`. -/
def EthPort.pfcEndOf (e : EthPort) (q : Nat) : Nat := tget (fun _ => 0) e.pfcEnd q

/-- The last cycle of a pause of `q` quanta that takes effect at the end of this cycle; one of time 0 ends what is in
force (R62, R63). Assumption log 32 (DEDUCED). -/
def State.pauseUntil (s : State) (p q old : Nat) : Nat := if q = 0 then min old s.now else s.now + s.quantaCycles p q

/-- A received PAUSE takes effect (R60 to R63): in force to the end of cycle now + time. -/
def State.takePause (s : State) (p q : Nat) : State :=
  let s1 := s.modEth p fun e => { e with pauseEnd := s.pauseUntil p q e.pauseEnd }
  s1.sf (F.ETH_FC_STATE_LINK_PAUSED p) (if q = 0 then 0 else 1)

/-- A received PFC pause on one priority takes effect. -/
def State.takePfc (s : State) (p prio q : Nat) : State :=
  let s1 := s.modEth p fun e => { e with pfcEnd := tset (fun _ => 0) e.pfcEnd prio (s.pauseUntil p q (e.pfcEndOf prio)) }
  let m := s1.gf (F.ETH_FC_STATE_PRI_PAUSED p)
  s1.sf (F.ETH_FC_STATE_PRI_PAUSED p) (if q = 0 then m &&& (255 - 2 ^ prio) else m ||| 2 ^ prio)

/-- An accepted MAC control frame is consumed by opcode and mode (R53). Assumption log 29 (DEDUCED). -/
def State.macControl (s : State) (p : Nat) (b : List Byte) : State :=
  let o := (s.frameInfo p b).body
  if beAt b o 2 = 1 ∧ s.fcMode p = 1 then s.takePause p (beAt b (o + 2) 2)
  else if beAt b o 2 = 0x101 ∧ s.fcMode p = 2 then
    (List.range 8).foldl (fun s q =>
      if (beAt b (o + 2) 2).testBit q then s.takePfc p q (beAt b (o + 4 + 2 * q) 2) else s) s
  else s

/-- Ends every pause in force on a port (R46). -/
def State.endPauses (s : State) (p : Nat) : State :=
  (s.modEth p fun e => { e with pauseEnd := 0, pfcEnd := [] }).wrN (R.ETH_FC_STATE p) 0

/-- Whether a pause in force halts a frame of a priority; a generated frame (no priority) is never halted (R60). -/
def State.halted (s : State) (p : Nat) (prio : Option Nat) : Bool :=
  match prio with
  | none => false
  | some q =>
    (s.flag (F.ETH_FC_STATE_LINK_PAUSED p) && decide (s.now ≤ (s.ethPort p).pauseEnd)) ||
    ((s.gf (F.ETH_FC_STATE_PRI_PAUSED p)).testBit q && decide (s.now ≤ (s.ethPort p).pfcEndOf q))

/-- LINK_UP. -/
def State.linkUp (s : State) (p : Nat) : Bool := s.flag (F.ETH_PORT_STATUS_LINK_UP p)

/-- A generated PAUSE or PFC frame with pause time `t` (R65; layout of Annex 31B and 802.1Qbb).
Assumption log 9 (PRESUMED). -/
def State.pauseFrame (s : State) (p t : Nat) : TxFrame :=
  let src := beBytes 6 (s.gf (F.ETH_UCAST_ADDRESS p 0))
  let m := s.gf (F.ETH_FC_TX_PFC_TX_MASK p)
  let head := beBytes 6 0x0180C2000001 ++ src ++ beBytes 2 0x8808
  if s.fcMode p = 1 then
    { kind := .genPause, bytes := head ++ beBytes 2 1 ++ beBytes 2 t, since := s.now }
  else
    { kind := .genPfc, since := s.now,
      bytes := head ++ beBytes 2 0x101 ++ beBytes 2 m ++
        (List.range 8).flatMap fun q => beBytes 2 (if m.testBit q then t else 0) }

/-- The port offers a generated frame: the newest waits (R93); while the link is down it is counted and not sent (R46). -/
def State.offerPause (s : State) (p t : Nat) : State :=
  if s.linkUp p then s.modEth p fun e => { e with genWait := some (s.pauseFrame p t) }
  else s.ethCnt p 51

/-- Whether the port generates pauses (R65). -/
def State.pauseGen (s : State) (p : Nat) : Bool :=
  decide (0 < s.gf (F.ETH_FC_THRESH_XOFF_KIB p)) && decide (0 < s.gf (F.ETH_FC_TX_TX_PAUSE_TIME p)) &&
    decide (s.fcMode p ≠ 0)

/-- XOFF_KIB as it acts. -/
def State.xoffKib (s : State) (p : Nat) : Nat := min 256 (s.gf (F.ETH_FC_THRESH_XOFF_KIB p))
/-- XON_KIB as it acts: XOFF_KIB - 1 when it is not below XOFF_KIB (R65). -/
def State.xonKib (s : State) (p : Nat) : Nat :=
  let x := min 256 (s.gf (F.ETH_FC_THRESH_XON_KIB p))
  if x < s.xoffKib p then x else s.xoffKib p - 1

/-- Occupancy of a port's spill buffer in bytes of whole 256-byte chunks (R88). -/
def State.spillBytes (s : State) (p : Nat) : Nat :=
  s.rings.foldl (fun a e => e.2.items.foldl (fun a it =>
    if !it.isRecord && it.port = p then a + 256 * cdiv it.rest.length 256 else a) a) 0

/-- After the spill occupancy changed: a pause is offered at XOFF_KIB, and its release below XON_KIB (R65). -/
def State.pauseCheck (s : State) (p : Nat) : State :=
  let occ := s.spillBytes p
  let e := s.ethPort p
  if !s.pauseGen p then s.modEth p fun e => { e with xoff := false }
  else if !e.xoff && decide (s.xoffKib p * 1024 ≤ occ) then
    (s.modEth p fun e => { e with xoff := true }).offerPause p (s.gf (F.ETH_FC_TX_TX_PAUSE_TIME p))
  else if e.xoff && decide (occ < s.xonKib p * 1024) then
    (s.modEth p fun e => { e with xoff := false }).offerPause p 0
  else s

/-! ### Preemption -/

/-- Whether preemption is active (R57), from the settings the transmit side uses. -/
def State.preemptActive (s : State) (p : Nat) : Bool :=
  let c := (s.ethPort p).preemptEff
  c.testBit 0 && s.linkUp p && (c.testBit 1 || decide (s.gf (F.ETH_PREEMPT_STATUS_VERIFY_STATUS p) = 3))

/-- PREEMPT_STATUS.ACTIVE follows R57. -/
def State.syncPreempt (s : State) (p : Nat) : State :=
  s.sf (F.ETH_PREEMPT_STATUS_ACTIVE p) (b2n (s.preemptActive p))

/-- Verification begins again: VERIFYING with the link up and verification wanted, INITIAL while the link is down, else
DISABLED (Table 2.15). Assumption log 33 (DEDUCED). -/
def State.restartVerify (s : State) (p : Nat) : State :=
  let c := (s.ethPort p).preemptEff
  let v := if !c.testBit 0 || c.testBit 1 then 0 else if s.linkUp p then 2 else 1
  (s.sf (F.ETH_PREEMPT_STATUS_VERIFY_STATUS p) v).syncPreempt p

/-- At a transmit frame boundary the settings last written take effect (R75). Assumption log 33 (DEDUCED). -/
def State.preemptBoundary (s : State) (p : Nat) : State :=
  let c := (s.rd (R.ETH_PREEMPT_CTRL p)).toNat
  let old := (s.ethPort p).preemptEff
  if c = old then s else
    let s1 := s.modEth p fun e => { e with preemptEff := c }
    if (c &&& 0xF) = (old &&& 0xF) then s1 else s1.restartVerify p

/-! ### Meanings -/

/-- After every command. Assumption log 5 (DEDUCED). -/
def done (s : State) : Host.Outcome State Fault Refusal := .next s.settle

/-- PAUSE_EXPIRED (R62): the flags of the pauses whose time has passed clear. Assumption log 32 (DEDUCED). -/
def execPauseExpired (p : Fin 16) (s : State) : Host.Outcome State Fault Refusal :=
  let e := s.ethPort p
  let ends := (if s.flag (F.ETH_FC_STATE_LINK_PAUSED p) then [e.pauseEnd + 1] else []) ++
    ((List.range 8).filter (s.gf (F.ETH_FC_STATE_PRI_PAUSED p)).testBit).map fun q => e.pfcEndOf q + 1
  let s := match ends with
    | [] => s
    | t :: l => s.advanceTo (l.foldl min t)
  let s1 := if s.now ≤ e.pauseEnd then s else s.sf (F.ETH_FC_STATE_LINK_PAUSED p) 0
  let m := (List.range 8).foldl (fun m q =>
    if m.testBit q && decide (e.pfcEndOf q < s.now) then m - 2 ^ q else m) (s1.gf (F.ETH_FC_STATE_PRI_PAUSED p))
  done (s1.sf (F.ETH_FC_STATE_PRI_PAUSED p) m)

/-- FEC_CODEWORD_DECODED (R45, R69, R362): the FEC counters of an Ethernet port (0 to 15) or a Rigging port (16 to 47)
count codewords and, on Ethernet, corrected symbols. -/
def execFecCodewordDecoded (p : Fin 48) (symbols : Byte) (uncorrectable : Bool) (s : State) :
    Host.Outcome State Fault Refusal :=
  if p.val < 16 then
    done (if uncorrectable then s.ethCnt p.val 46
      else if symbols = 0 then s else (s.ethCnt p.val 45).ethCnt p.val 47 symbols.toNat)
  else done (if uncorrectable then s.cnt (R.RIGP_COUNT (p.val - 16) 8)
    else if symbols = 0 then s else s.cnt (R.RIGP_COUNT (p.val - 16) 7))

/-- PAUSE_RESEND (R65): half the pause time after the last generated frame began, while occupancy stays at XON_KIB or
above, the same frame is offered again. TX_PAUSE_TIME * 256 bit times are half as many cycles as its quanta. -/
def execPauseResend (p : Fin 16) (s : State) : Host.Outcome State Fault Refusal :=
  let t := s.gf (F.ETH_FC_TX_TX_PAUSE_TIME p)
  let due := cdiv (t * 16 * s.divN * s.speedMul p) 1000 + (s.ethPort p).lastGen
  if s.pauseGen p && (s.ethPort p).xoff && decide (s.xonKib p * 1024 ≤ s.spillBytes p) then
    done ((s.advanceTo due).offerPause p t)
  else done s

/-- PREEMPT_VERIFY (R57): verification reaches SUCCEEDED or FAILED. -/
def execPreemptVerify (p : Fin 16) (ok : Bool) (s : State) : Host.Outcome State Fault Refusal :=
  if s.gf (F.ETH_PREEMPT_STATUS_VERIFY_STATUS p) ≠ 2 then done s
  else if ok then done ((s.sf (F.ETH_PREEMPT_STATUS_VERIFY_STATUS p) 3).syncPreempt p)
  else done (((s.sf (F.ETH_PREEMPT_STATUS_VERIFY_STATUS p) 4).raise (F.ETH_PORT_EVENTS_VERIFY_FAILED p)).syncPreempt p)

/-- A write to PREEMPT_CTRL: it takes effect at the next transmit frame boundary, at once on an idle port (R75).
Assumption log 33 (DEDUCED). -/
def State.preemptWrite (s : State) (p v : Nat) : State :=
  let s1 := s.wrN (R.ETH_PREEMPT_CTRL p) (v &&& 0xFFFF0F)
  let e := s1.ethPort p
  if e.inProg.isNone && e.susp.isNone then s1.preemptBoundary p else s1

/-- PREEMPT_CTRL_WRITE (R75). -/
def execPreemptCtrlWrite (p : Fin 16) (v : W32) (s : State) : Host.Outcome State Fault Refusal :=
  done (s.preemptWrite p v.toNat)

/-- NATIVE_CLEAR (R72): the 52 counters become 0; `incs` are the increments of the same CK_MGMT cycle, applied after. -/
def execNativeClear (p : Fin 16) (incs : List (Fin 52 × Nat)) (s : State) : Host.Outcome State Fault Refusal :=
  let s1 := (List.range 52).foldl (fun s i => s.wrN (R.ETH_COUNTER p i) 0) s
  done (incs.foldl (fun s e => s.ethCnt p e.1.val e.2) s1)

/-- A read of a compatibility counter: its value, and the counter then holds the same cycle's increment (R73, R74). -/
def State.compatRead (s : State) (off inc : Nat) : Nat × State :=
  ((s.rd off).toNat, s.wrN off (min 0xFFFFFFFF inc))

/-- COMPAT_COUNTER_READ (R73, R74). -/
def execCompatCounterRead (src : Src) (p : Fin 16) (i : Fin 24) (inc : W32) (s : State) :
    Host.Outcome State Fault Refusal :=
  let (v, s1) := s.compatRead (R.ETH_COMPAT p i) inc.toNat
  done (s1.emit (.completion (srcCode src) stOk (leBytes 4 v)))

/-- PTP_NS_READ (R76). -/
def execPtpNsRead (src : Src) (s : State) : Host.Outcome State Fault Refusal :=
  let (v, s1) := s.ptpReadNs (latchOf src)
  done (s1.emit (.completion (srcCode src) stOk (leBytes 4 v)))

/-- PTP_SEC_WRITE (R76). -/
def execPtpSecWrite (v : W64) (s : State) : Host.Outcome State Fault Refusal := done (s.ptpStage v.toNat)

/-- PTP_NS_WRITE (R76). -/
def execPtpNsWrite (v : W32) (s : State) : Host.Outcome State Fault Refusal := done (s.ptpSet v.toNat)

/-- PTP_STEP_WRITE (R76). -/
def execPtpStepWrite (v : W32) (s : State) : Host.Outcome State Fault Refusal := done (s.ptpAdjust v.toNat)

/-- PTP_RATE_WRITE (R66): the rate correction scales every step from the next CK_NET cycle. -/
def execPtpRateWrite (v : W32) (s : State) : Host.Outcome State Fault Refusal :=
  done (s.sf F.ETH_PTP_RATE_RATE v.toNat)

/-- SAMPLER_ARM (R190): VALID clears and the port's stamp sampler is armed. -/
def execSamplerArm (p : Fin 16) (s : State) : Host.Outcome State Fault Refusal :=
  done ((s.sf (F.SAMPLE_CTRL_VALID p) 0).sf (F.SAMPLE_CTRL_ARM p) 1)

end Sys2Proof.Machine
end

