-- ==== Sys2Proof/Machine/Rings.lean ====
section
/-! DEFINITION. Hardware rings (spec ch. 3): configuration, indices, descriptor reads, received frames and the spill
buffer, the examination and staging of transmit frames, query records, doorbells, completion. -/

namespace Sys2Proof.Machine

/-! ### Configuration -/

/-- Ring classes (Table 3.1). -/
abbrev rcRx : Nat := 1
abbrev rcTx : Nat := 2
abbrev rcRecord : Nat := 3
abbrev rcReclog : Nat := 4
abbrev rcDoorbell : Nat := 5

/-- CLASS as it acts: RX for rings 0 to 15, UNUSED for reserved values (R77). -/
def State.ringClass (s : State) (n : Nat) : Nat :=
  if n < 16 then rcRx else
    let c := s.gf (F.RING_CFG_CLASS n)
    if c ≤ 5 then c else 0

/-- PORT as it acts: its own number for rings 0 to 15. -/
def State.ringPort (s : State) (n : Nat) : Nat := if n < 16 then n else s.gf (F.RING_CFG_PORT n)

/-- ENABLE. -/
def State.ringOn (s : State) (n : Nat) : Bool := s.flag (F.RING_CFG_ENABLE n)

/-- Units of a ring (Table 3.10). -/
def State.ringSize (s : State) (n : Nat) : Nat := 2 ^ min 16 (max 6 (s.gf (F.RING_CFG_LOG2_ENTRIES n)))

/-- Bytes of each posted buffer (Table 3.10). -/
def State.bufSize (s : State) (n : Nat) : Nat :=
  let v := s.gf (F.RING_CFG_BUF_SIZE n)
  if v ≤ 5 then 2048 * 2 ^ v else 2048

/-- Address of unit `i` of a ring, in the form of R78, the base aligned down as R78 gives. -/
def State.unitAddr (s : State) (n i : Nat) : Nat :=
  let b := (s.rd (R.RING_BASE n)).toNat
  let al := min 4096 (32 * s.ringSize n)
  b - b % al + 32 * (i % s.ringSize n)

/-- DEV_IDX and SW_IDX (R81). -/
def State.devIdx (s : State) (n : Nat) : Nat := s.gf (F.RING_DEV_IDX_DEV_IDX n)
def State.swIdx (s : State) (n : Nat) : Nat := s.gf (F.RING_SW_IDX_SW_IDX n)

/-- Subtraction modulo 2^32. -/
def sub32 (a b : Nat) : Nat := (a + 2 ^ 32 - b % 2 ^ 32) % 2 ^ 32

/-- Whether a class holds descriptors. -/
def isDescClass (c : Nat) : Bool := decide (c = rcRx) || decide (c = rcTx) || decide (c = rcRecord)

/-! ### Completion -/

/-- Restarts the advance count and the completion timer (R101). -/
def State.restartIrq (s : State) (n : Nat) : State := s.modRing n fun r => { r with adv := 0, timerFrom := none }

/-- DEV_IDX advances by `k`; the mirror is written; the advance count may set COMPLETION (R83, R101). -/
def State.advance (s : State) (n k : Nat) : State :=
  if k = 0 then s else
  let d := (s.devIdx n + k) % 2 ^ 32
  let s1 := s.sf (F.RING_DEV_IDX_DEV_IDX n) d
  let m := (s.rd (R.RING_IDX_MIRROR n)).toNat
  let s2 := if m.testBit 62 then
      let a := m % 2 ^ 56 - m % 4 + (if m.testBit 63 then 2 ^ 63 else 0)
      s1.dmaWrite (.ringDma n) a (leBytes 4 d) true
    else s1
  let s3 := s2.modRing n fun r => { r with adv := r.adv + k, timerFrom := some (r.timerFrom.getD s.now) }
  if !s3.flag (F.RING_STATUS_COMPLETION n) && decide (max 1 (s3.gf (F.RING_IRQ_CTRL_IRQ_COUNT n)) ≤ (s3.ring n).adv) then
    s3.raise (F.RING_STATUS_COMPLETION n)
  else s3

/-- FLAGS, STATUS and stamp of a completed descriptor (Table 3.2, bytes 12 to 27), DONE among them (R83). -/
def doneFields (flags status : Nat) (stamp : Option Instant) : List Byte :=
  leBytes 2 (flags ||| 1) ++ leBytes 2 status ++ (match stamp with | some t => t.bytes | none => List.replicate 12 0)

/-- The fields the device owns in a completed RX or RECORD descriptor (Table 3.2, bytes 8 to 31).
Assumption log 37 (DEDUCED). -/
def doneDesc (len flags status : Nat) (stamp : Option Instant) (tail : List Byte) : List Byte :=
  leBytes 4 len ++ doneFields flags status stamp ++ slice tail 0 4

/-- FLAGS bits (Table 3.3). -/
abbrev flSop : Nat := 2
abbrev flEop : Nat := 4
abbrev flDiscard : Nat := 8
abbrev flStamped : Nat := 16
abbrev flSpilled : Nat := 32
abbrev flStampReq : Nat := 64
abbrev flVlan : Nat := 128

/-- Descriptor STATUS (Table 3.4). -/
abbrev dsOk : Nat := 0
abbrev dsNoBuffer : Nat := 1
abbrev dsRxDropped : Nat := 2
abbrev dsTxOversize : Nat := 3
abbrev dsLinkDown : Nat := 4
abbrev dsDescError : Nat := 5
abbrev dsFetchError : Nat := 6
abbrev dsRecordVoid : Nat := 7

/-- Writes the device's fields of completed descriptors from DEV_IDX on in ring order, from byte `at_` of each
descriptor, then advances DEV_IDX (R83, R84: the device writes the fields marked D). Assumption log 37 (DEDUCED). -/
def State.writeBack (s : State) (n at_ : Nat) (ds : List (List Byte)) : State :=
  let s1 := (List.range ds.length).foldl (fun s i =>
    s.dmaWrite (.ringDma n) (s.unitAddr n (s.devIdx n + i) + at_) (ds.getD i [])) s
  s1.advance n ds.length

/-- Counts descriptors completed with a STATUS other than OK (Table 3.19). -/
def State.ringErr (s : State) (n k : Nat) : State := s.addCtr 32 (R.RING_ERR_COUNT n) k

/-- A drop or refusal for lack of buffer (Tables 3.15, 3.16). -/
def State.nobuf (s : State) (n : Nat) : State :=
  (s.addCtr 32 (R.RING_NOBUF_DROPS n) 1).raise (F.RING_STATUS_NOBUF n)

/-- The descriptors of an item, completed with its outcome (R85, R87, R97, R498). -/
def RxItem.descs (it : RxItem) (status : Nat) : List (List Byte) :=
  let good := it.used.filter fun u => !u.bad
  let last := good.length
  let idx (k : Nat) : Nat := ((it.used.take k).filter fun u => !u.bad).length
  (List.range it.used.length).map fun k =>
    let u := it.used.getD k ⟨[], 0, false, false⟩
    if u.bad then doneDesc 0 flDiscard dsFetchError none []
    else
      let sop := idx k = 0
      let eop := idx k + 1 = last
      let ok := status = dsOk
      let fl := (if sop then flSop else 0) + (if ok && eop then flEop else 0) + (if ok then 0 else flDiscard) +
        (if u.spilled then flSpilled else 0) + (if ok && sop then flStamped else 0) +
        (if it.vlan && !it.isRecord then flVlan else 0)
      let tail := leBytes 2 (if ok && eop then it.len else 0) ++ leBytes 1 it.port ++ leBytes 1 it.prio
      doneDesc u.len fl status (if ok && sop then some it.stamp else none) tail

/-- Completes one item of an RX or RECORD ring with a STATUS. -/
def State.completeItem (s : State) (n : Nat) (it : RxItem) (status : Nat) : State :=
  let s0 := if status = dsOk && it.isRecord then
      match it.used.find? fun u => !u.bad with
      | some u => s.dmaWrite (.ringDma n) (leAt u.bytes 0 8 / 64 * 64) it.header
      | none => s
    else s
  let s1 := s0.writeBack n 8 (it.descs status)
  let bad := (it.used.filter fun u => u.bad).length
  let s2 := if bad = 0 then s1 else s1.raise (F.RING_STATUS_FETCH_ERR n)
  let errs := if status = dsOk then bad else it.used.length
  let s3 := if errs = 0 then s2 else s2.ringErr n errs
  if status = dsOk then s3.cnt (R.RING_DONE_COUNT n) else s3

/-! ### Receive -/

/-- Steps 1 and 3 of R88 for one item: its bytes go into the usable descriptors of the ring; a descriptor whose own read
failed is skipped (R498). A buffer whose first byte, crossing in cycle `cross` of its place, came before its descriptor
was usable has bytes that passed through the spill buffer. Returns the item, the descriptors left, and the buffer
writes. Assumption log 36 (DEDUCED). -/
def fillItem (cross : Nat → Nat) (buf : Nat) : Nat → RxItem → List FetchedDesc → RxItem × List FetchedDesc × List (Nat × List Byte)
  | 0, it, fd => (it, fd, [])
  | fuel + 1, it, fd =>
    if it.rest.isEmpty then (it, fd, []) else
    match fd with
    | [] => (it, [], [])
    | d :: fd' =>
      if !d.ok then
        fillItem cross buf fuel { it with used := it.used ++ [⟨d.bytes, 0, false, true⟩] } fd'
      else
        let k := min buf it.rest.length
        let spilled := !it.isRecord && decide (cross (it.used.foldl (fun a u => a + u.len) 0) < d.usable)
        let (it', fd'', ws) := fillItem cross buf fuel
          { it with used := it.used ++ [⟨d.bytes, k, spilled, false⟩], rest := it.rest.drop k } fd'
        (it', fd'', (leAt d.bytes 0 8 / 64 * 64, it.rest.take k) :: ws)

/-- Marked bytes, counted from byte `lo` on. -/
def marksFrom (lo : Nat) (marks : List Nat) : List Nat := (marks.filter fun x => decide (lo ≤ x)).map fun x => x - lo

/-- Fills item number `i` of a ring and performs the buffer writes. -/
def State.fillRing (s : State) (n i : Nat) : State :=
  let r := s.ring n
  match r.items[i]? with
  | none => s
  | some it =>
    let (it', fd, ws) := fillItem (fun k => it.start + s.crossAfter it.port k) (s.bufSize n) (r.fetched.length + 1) it r.fetched
    let s1 := s.modRing n fun r => { r with items := r.items.set i it', fetched := fd }
    let from_ := it.used.foldl (fun a u => a + u.len) 0
    (ws.foldl (fun (x : Nat × State) w =>
      (x.1 + w.2.length, x.2.dmaWrite (.ringDma n) w.1 w.2 false (marksFrom x.1 it.marks))) (from_, s1)).2

/-- Completes the decided and fully written items at the head of a ring, in ring order (R87, R97).
Assumption log 38 (DEDUCED). -/
def State.retire (s : State) (n : Nat) : Nat → State
  | 0 => s
  | fuel + 1 =>
    match (s.ring n).items with
    | [] => s
    | it :: t =>
      match it.outcome with
      | none => s
      | some st =>
        if st = dsOk && !it.rest.isEmpty then s else
          let s1 := s.modRing n fun r => { r with items := t }
          (s1.completeItem n it st).retire n fuel

/-- A descriptor whose own read failed completes in its ring position, without waiting for a frame or a record (R498).
Assumption log 38 (DEDUCED). -/
def State.skipFailed (s : State) (n : Nat) : Nat → State
  | 0 => s
  | fuel + 1 =>
    match (s.ring n).items, (s.ring n).fetched with
    | [], d :: t =>
      if d.ok then s else
        let s1 := (s.modRing n fun r => { r with fetched := t }).writeBack n 8 [doneDesc 0 flDiscard dsFetchError none []]
        ((s1.raise (F.RING_STATUS_FETCH_ERR n)).ringErr n 1).skipFailed n fuel
    | _, _ => s

/-- Completes what is decided at the head of a ring, and the failed descriptors that follow (R87, R97, R498). -/
def State.retireAll (s : State) (n : Nat) : State :=
  let s1 := s.retire n (s.ring n).items.length
  s1.skipFailed n (s1.ring n).fetched.length

/-- A descriptor became usable in an RX ring: the oldest spilled bytes drain into it (R88 step 3), frame by frame. -/
def State.drain (s : State) (n : Nat) : State :=
  let k := (s.ring n).items.length
  let s1 := (List.range k).foldl (fun s i =>
    if (List.range i).all fun j => ((s.ring n).items.getD j {}).rest.isEmpty then s.fillRing n i else s) s
  s1.retireAll n

/-- The ring an accepted frame is steered to (R79). -/
def State.steer (s : State) (p q : Nat) : Nat :=
  let cands := s.regs.filterMap fun e =>
    if 0x800000 ≤ e.1 ∧ e.1 < 0xC00000 ∧ e.1 % 0x40 = 8 then some ((e.1 - 0x800000) / 0x40) else none
  (cands.find? fun n => decide (16 ≤ n) && s.ringOn n && decide (s.ringClass n = rcRx) && decide (s.ringPort n = p) &&
    (s.gf (F.RING_MASK_PRI_MASK n)).testBit q).getD p

/-- Descriptors that frames of the ring already kept still need. Assumption log 36 (DEDUCED). -/
def RingEng.owed (r : RingEng) (buf : Nat) : Nat := r.items.foldl (fun a it => a + cdiv it.rest.length buf) 0
/-- Descriptors that frames of the ring have taken and not completed. -/
def RingEng.taken (r : RingEng) : Nat := r.items.foldl (fun a it => a + it.used.length) 0

/-- Chunks free in a port's spill buffer of 256 KiB. Assumption log 36 (DEDUCED). -/
def State.chunksFree (s : State) (p : Nat) : Nat := 1024 - s.spillBytes p / 256

/-- A received frame reaches its ring in its fate cycle (R86 to R90): its bytes before the FCS go to the ring's usable
descriptors and the spill buffer; `drop` is true when the port drops it under Table 2.2, after bytes were written.
Assumption log 36 (DEDUCED). -/
def State.ringReceive (s : State) (n : Nat) (it : RxItem) (drop : Bool) : State :=
  if !s.ringOn n || decide (s.ringClass n ≠ rcRx) then (if drop then s else s.nobuf n) else
  let waiting := (s.ring n).items.any fun x => !x.rest.isEmpty
  let i := (s.ring n).items.length
  let s1 := s.modRing n fun r => { r with items := r.items ++ [it] }
  let s2 := if waiting then s1 else s1.fillRing n i
  let it2 := ((s2.ring n).items.getD i it)
  let before := { (s2.ring n) with items := (s2.ring n).items.take i }
  let chunks := cdiv it2.rest.length 256
  let free := s2.chunksFree it.port + chunks
  let unused := sub32 (s2.swIdx n) (s2.devIdx n) - before.taken - it2.used.length - before.owed (s2.bufSize n)
  let fits := decide (chunks ≤ free) && decide (cdiv it2.rest.length (s2.bufSize n) ≤ unused)
  let settleWith (st : Nat) (x : RxItem) : State :=
    (s2.modRing n fun r => { r with items := r.items.set i { x with outcome := some st } }).retireAll n
  let s3 := if drop then settleWith dsRxDropped { it2 with rest := [] }
    else if fits then settleWith dsOk it2
    else (settleWith dsNoBuffer { it2 with rest := [] }).nobuf n
  s3.pauseCheck it.port

/-! ### Transmit -/

/-- Completes descriptors of a TX frame with one STATUS; the stamp goes into the SOP descriptor (R94). -/
def State.completeTx (s : State) (n : Nat) (ds : List (List Byte)) (status : Nat) (stamp : Option Instant := none) : State :=
  let out := (List.range ds.length).map fun i =>
    let d := ds.getD i []
    let fl := leAt d 12 2
    let st := if i = 0 then stamp else none
    doneFields (fl ||| (if st.isSome then flStamped else 0)) status st
  let s1 := s.writeBack n 12 out
  let s2 := if status = dsOk then s1.cnt (R.RING_DONE_COUNT n) else s1.ringErr n ds.length
  let s3 := if status = dsDescError then s2.raise (F.RING_STATUS_DESC_ERR n) else s2
  if status = dsFetchError then s3.raise (F.RING_STATUS_FETCH_ERR n) else s3

/-- Frame length of a transmit frame of `k` bytes before the FCS (R91). -/
def txLen (k : Nat) : Nat := max 64 (k + 4)

/-- Examines the usable descriptors of a TX ring one by one (R92, R498) until a frame waits for staging.
Assumption log 37 (DEDUCED). -/
def State.examineTx (s : State) (n : Nat) : Nat → State
  | 0 => s
  | fuel + 1 =>
    let p := s.ringPort n
    if (s.ethPort p).staging.any fun f => decide (f.ring = n) then s else
    let r := s.ring n
    match r.fetched with
    | [] => s
    | d :: t =>
      let pop (c : List (List Byte)) (s : State) : State := s.modRing n fun r => { r with fetched := t, chain := c }
      let fail (ds : List (List Byte)) (st : Nat) : State := ((pop [] s).completeTx n ds st).examineTx n fuel
      let fl := leAt d.bytes 12 2
      let len := leAt d.bytes 8 4 % 2 ^ 17
      let sop := fl.testBit 1
      let eop := fl.testBit 2
      let all := r.chain ++ [d.bytes]
      let sum := all.foldl (fun a x => a + leAt x 8 4 % 2 ^ 17) 0
      if !d.ok then fail all dsFetchError
      else if r.chain.isEmpty && !sop then fail [d.bytes] dsDescError
      else if !r.chain.isEmpty && sop then
        ((s.modRing n fun r => { r with chain := [] }).completeTx n r.chain dsDescError).examineTx n fuel
      else if len = 0 || decide (65536 < len) then fail all dsDescError
      else if eop then
        if sum < 14 then fail all dsDescError
        else if s.maxFrame p < txLen sum then
          (((pop [] s).ethCnt p 51).completeTx n all dsTxOversize).examineTx n fuel
        else
          let first := all.getD 0 []
          (pop [] s).modEth p fun e => { e with staging := e.staging ++
            [{ ring := n, descs := all, len := txLen sum, prio := leAt first 31 1 % 8,
               stampReq := (leAt first 12 2).testBit 6, known := s.now }] }
      else if all.length = 16 then fail all dsDescError
      else (pop all s).examineTx n fuel

/-- The staging entry of a ring, if it has one. -/
def EthPort.stagedOf (e : EthPort) (n : Nat) : Option StagedTx := e.staging.find? fun f => decide (f.ring = n)

/-- Removes a ring's staging entry, completes its descriptors, and examines the ring's next frame. -/
def State.endStaged (s : State) (p n : Nat) (status : Nat) (stamp : Option Instant := none) : State :=
  match (s.ethPort p).stagedOf n with
  | none => s
  | some f =>
    let s1 := s.modEth p fun e => { e with staging := e.staging.filter fun g => decide (g.ring ≠ n) }
    (s1.completeTx n f.descs status stamp).examineTx n 32

/-- Bytes of the 32 KiB staging store in use (R91). -/
def EthPort.stagingUsed (e : EthPort) : Nat := e.staging.foldl (fun a f => if f.reading then a + f.len else a) 0

/-- The ring whose frame is given staging space next: lengths known first, ties in ascending ring number (R91). -/
def EthPort.nextStage (e : EthPort) : Option Nat :=
  (e.staging.foldl (fun (b : Option (Nat × Nat)) f =>
    if f.reading then b else
    match b with
    | none => some (f.known, f.ring)
    | some (k, n) => if f.known < k || (f.known = k && f.ring < n) then some (f.known, f.ring) else b) none).map (·.2)

/-! ### Query records -/

/-- The ring a REQUEST to a model slot is captured into (R95). -/
def State.recordRing (s : State) (m : Nat) : Option Nat :=
  let cands := s.regs.filterMap fun e =>
    if 0x800000 ≤ e.1 ∧ e.1 < 0xC00000 ∧ e.1 % 0x40 = 8 then some ((e.1 - 0x800000) / 0x40) else none
  cands.find? fun n => s.ringOn n && (decide (s.ringClass n = rcRecord) || decide (s.ringClass n = rcReclog)) &&
    (s.gf (F.RING_MASK_MODEL_MASK n)).testBit m

/-- The 32-byte header of a query record (Table 3.6). -/
def recordHeader (id len slot port tmpl pass status : Nat) (stamp : Instant) : List Byte :=
  leBytes 8 id ++ leBytes 2 len ++ leBytes 1 (slot + 16 * port) ++ leBytes 1 (tmpl + 64 * pass) ++ leBytes 2 status ++
    leBytes 2 0 ++ stamp.bytes ++ leBytes 4 0

/-- Writes record bytes into the units of a RECLOG ring, contiguous modulo the log size (R96). -/
def State.logWrite (s : State) (n unit : Nat) (b : List Byte) (marks : List Nat := []) : State :=
  (List.range (cdiv b.length 32)).foldl (fun s i =>
    s.dmaWrite (.ringDma n) (s.unitAddr n (unit + i)) (slice b (32 * i) 32) false (marksFrom (32 * i) marks)) s

/-- A record begins (R96 to R98): space is allocated and the bytes written, or it is dropped at once with NO_BUFFER.
Answers whether it was begun. `marks` are the bytes of the body in poisoned units. Assumption log 40 (DEDUCED). -/
def State.recordBegin (s : State) (n key : Nat) (header body : List Byte) (stamp : Instant) (port prio : Nat)
    (marks : List Nat := []) : Bool × State :=
  let marks := marks.map fun x => x + 32
  let it : RxItem := { isRecord := true, key := key, header := header, body := body, rest := header ++ body,
                       stamp := stamp, len := 32 + body.length, port := port, prio := prio, marks := marks }
  if s.ringClass n = rcRecord then
    let i := (s.ring n).items.length
    let s1 := (s.modRing n fun r => { r with items := r.items ++ [it] }).fillRing n i
    let it1 := (s1.ring n).items.getD i it
    if it1.rest.isEmpty then (true, s1)
    else
      (false, ((s1.modRing n fun r =>
        { r with items := r.items.set i { it1 with rest := [], outcome := some dsNoBuffer } }).retireAll n).nobuf n)
  else
    let units := cdiv (32 + body.length) 32
    let a := (s.ring n).allocIdx
    if s.ringSize n < sub32 a (s.swIdx n) + units then (false, s.nobuf n)
    else
      let s1 := s.logWrite n a (header ++ body) marks
      (true, s1.modRing n fun r =>
        { r with allocIdx := (a + units) % 2 ^ 32, items := r.items ++ [{ it with rest := [], unit := a, units := units }] })

/-- Log records that are decided at the head of a RECLOG ring become visible in ring order (R97). -/
def State.retireLog (s : State) (n : Nat) : Nat → State
  | 0 => s
  | fuel + 1 =>
    match (s.ring n).items with
    | [] => s
    | it :: t =>
      match it.outcome with
      | none => s
      | some st =>
        let s1 := (s.modRing n fun r => { r with items := t }).advance n it.units
        let s2 := if st = dsOk then s1.cnt (R.RING_DONE_COUNT n) else s1
        s2.retireLog n fuel

/-- A record is decided (R97): committed with its REPLY_STATUS and pass count, or void. Assumption log 40 (DEDUCED). -/
def State.recordDecide (s : State) (n key : Nat) (commit : Bool) (status pass : Nat) : State :=
  let items := (s.ring n).items
  match items.findIdx? fun it => it.isRecord && decide (it.key = key) with
  | none => s
  | some i =>
    let it := items.getD i {}
    let hdr := patch (patch it.header 12 (leBytes 2 status)) 11
      (leBytes 1 (leAt it.header 11 1 % 64 + 64 * pass))
    if s.ringClass n = rcReclog then
      if commit then
        let s1 := s.logWrite n it.unit hdr
        (s1.modRing n fun r => { r with items := r.items.set i { it with outcome := some dsOk } }).retireLog n (items.length)
      else if i + 1 = items.length then
        s.modRing n fun r => { r with items := r.items.take i, allocIdx := it.unit }
      else
        let s1 := s.logWrite n it.unit (patch it.header 12 (leBytes 2 2))
        (s1.modRing n fun r =>
          { r with items := r.items.set i { it with outcome := some dsRecordVoid } }).retireLog n (items.length)
    else
      let it' := { it with header := hdr, outcome := some (if commit then dsOk else dsRecordVoid) }
      (s.modRing n fun r => { r with items := r.items.set i it' }).retireAll n

/-! ### Doorbells -/

/-- One doorbell entry (Table 3.7). -/
def doorbellEntry (src tag : Nat) (payload : List Byte) : List Byte :=
  leBytes 2 src ++ leBytes 2 0 ++ leBytes 4 tag ++ slice payload 0 16 ++ leBytes 6 0 ++ leBytes 2 1

/-- Appends a doorbell to its ring (R99, R346): the STATUS and the state after it. A poisoned payload poisons the entry. -/
def State.ringDoorbell (s : State) (n src tag : Nat) (payload : List Byte) (poison : Bool := false) : Nat × State :=
  if !s.ringOn n || decide (s.ringClass n ≠ rcDoorbell) then (stDenied, s)
  else if s.ringSize n ≤ sub32 (s.devIdx n) (s.swIdx n) then
    (stDbFull, ((s.nobuf n).rigCnt 17).raise F.RIG_EVENTS_DOORBELL_FULL)
  else
    let s1 := s.dmaWrite (.ringDma n) (s.unitAddr n (s.devIdx n)) (doorbellEntry src tag payload) false
      (if poison then [8] else [])
    (stOk, (s1.advance n 1).cnt (R.RING_DONE_COUNT n))

/-! ### Meanings -/

/-- A write to SW_IDX (R82, R100). Assumption log 39 (DEDUCED). -/
def State.swIdxWrite (s : State) (n v : Nat) : State :=
  if !s.ringOn n then s else
  let sw := s.swIdx n
  let dev := s.devIdx n
  let bad := decide (2 ^ 31 ≤ sub32 v sw) ||
    (isDescClass (s.ringClass n) && decide (s.ringSize n < sub32 v dev)) ||
    ((decide (s.ringClass n = rcReclog) || decide (s.ringClass n = rcDoorbell)) && decide (sub32 dev sw < sub32 v sw))
  if bad then s.raise (F.RING_STATUS_IDX_ERR n) else s.sf (F.RING_SW_IDX_SW_IDX n) v

/-- SW_IDX_WRITE (R82). -/
def execSwIdxWrite (n : BitVec 16) (v : W32) (s : State) : Host.Outcome State Fault Refusal :=
  done (s.swIdxWrite n.toNat v.toNat)

/-- Whether the device may read the next descriptor of a ring (R497). -/
def State.mayFetch (s : State) (n : Nat) : Bool :=
  s.ringOn n && isDescClass (s.ringClass n) && decide ((s.ring n).readIdx ≠ s.swIdx n) &&
    decide (sub32 (s.ring n).readIdx (s.devIdx n) < 16)

/-- DESCRIPTOR_FETCHED (R497, R498): the read of the ring's next descriptor completes; `ext` is what host memory or
another module returned, none an error completion or poisoned data. -/
def execDescriptorFetched (n : BitVec 16) (ext : Option (List Byte)) (s : State) : Host.Outcome State Fault Refusal :=
  let n := n.toNat
  if !s.mayFetch n then done s else
  let idx := (s.ring n).readIdx
  let (d, s1) := s.dmaRead (s.unitAddr n idx) 32 ext
  let fd : FetchedDesc := ⟨idx, d.isSome, d.getD (List.replicate 32 0), s.now⟩
  let s2 := s1.modRing n fun r => { r with readIdx := (idx + 1) % 2 ^ 32, fetched := r.fetched ++ [fd] }
  if s.ringClass n = rcRx then done ((s2.drain n).pauseCheck (s.ringPort n))
  else if s.ringClass n = rcTx then done (s2.examineTx n 32)
  else done (s2.skipFailed n (s2.ring n).fetched.length)

/-- ENABLE changes from 0 to 1 (R100): indices and DONE_COUNT become 0, the held configuration applies. -/
def State.ringEnable (s : State) (n : Nat) : State :=
  if s.ringOn n then s else
  let s1 := (s.sf (F.RING_CFG_ENABLE n) 1).sf (F.RING_DEV_IDX_DEV_IDX n) 0
  let s2 := (s1.sf (F.RING_SW_IDX_SW_IDX n) 0).wrN (R.RING_DONE_COUNT n) 0
  s2.modRing n fun _ => {}

/-- ENABLE changes from 1 to 0 (R90, R100): an RX ring drops the frame in progress and its spilled frames as NO_BUFFER;
a TX ring's frame in progress completes at its end; records and doorbells end as they would have. -/
def State.ringDisable (s : State) (n : Nat) : State :=
  if !s.ringOn n then s else
  if s.ringClass n = rcRx then
    let items := (s.ring n).items
    let s1 := items.foldl (fun s it =>
      ((s.completeItem n { it with rest := [] } dsNoBuffer).nobuf n)) (s.modRing n fun r => { r with items := [] })
    ((s1.sf (F.RING_CFG_ENABLE n) 0).modRing n fun r => { r with fetched := [] }).pauseCheck (s.ringPort n)
  else
    (s.sf (F.RING_CFG_ENABLE n) 0).modRing n fun r => { r with fetched := [], chain := [] }

/-- RING_ENABLE (R100). -/
def execRingEnable (n : BitVec 16) (s : State) : Host.Outcome State Fault Refusal := done (s.ringEnable n.toNat)
/-- RING_DISABLE (R90). -/
def execRingDisable (n : BitVec 16) (s : State) : Host.Outcome State Fault Refusal := done (s.ringDisable n.toNat)

/-- A write to a ring register (R100): while ENABLE is 1 only ENABLE, SW_IDX, IRQ_CTRL and W1C bits act. -/
def State.ringCfgWrite (s : State) (n v : Nat) : State :=
  if s.ringOn n then (if v.testBit 0 then s else s.ringDisable n)
  else
    let keep := if n < 16 then 0x1F1D else 0xFF001F1D
    let old := (s.rd (R.RING_CFG n)).toNat
    let new := (v &&& keep &&& 0xFFFFFFFE) ||| (if n < 16 then old &&& 0xFF000000 else 0)
    let s1 := s.wrN (R.RING_CFG n) new
    if v.testBit 0 then s1.ringEnable n else s1

/-- TX_STAGE (R91): the frame of the ring whose length became known first finds room in the staging store. -/
def execTxStage (n : BitVec 16) (s : State) : Host.Outcome State Fault Refusal :=
  let p := s.ringPort n.toNat
  let e := s.ethPort p
  match e.stagedOf n.toNat with
  | none => done s
  | some f =>
    if e.nextStage = some n.toNat && decide (e.stagingUsed + f.len ≤ 32768) then
      done (s.modEth p fun e => { e with staging := e.staging.map fun g =>
        if g.ring = n.toNat then { g with reading := true } else g })
    else done s

/-- Reads every buffer of a frame: `exts` are what host memory or other modules returned, in buffer order. -/
def State.readBuffers (s : State) : List (List Byte) → List (Option (List Byte)) → Option (List Byte) × State
  | [], _ => (some [], s)
  | d :: t, exts =>
    let (b, s1) := s.dmaRead (leAt d 0 8 / 64 * 64) (leAt d 8 4 % 2 ^ 17) (exts.headD none)
    let (rest, s2) := s1.readBuffers t exts.tail
    (match b, rest with | some x, some y => some (x ++ y) | _, _ => none, s2)

/-- TX_FRAME_STAGED (R91): all of a ring frame is staged and it becomes a candidate; a failed read completes it with
FETCH_ERROR (R498), a link that is down with TX_LINK_DOWN (R46, R94). -/
def execTxFrameStaged (n : BitVec 16) (exts : List (Option (List Byte))) (s : State) : Host.Outcome State Fault Refusal :=
  let n := n.toNat
  let p := s.ringPort n
  match (s.ethPort p).stagedOf n with
  | none => done s
  | some f =>
    if !f.reading || f.ready then done s else
    match s.readBuffers f.descs exts with
    | (none, s1) => done (s1.endStaged p n dsFetchError)
    | (some b, s1) =>
      if !s.linkUp p then done ((s1.ethCnt p 51).endStaged p n dsLinkDown)
      else done (s1.modEth p fun e => { e with staging := e.staging.map fun g =>
        if g.ring = n then { g with ready := true, bytes := b, since := s.now } else g })

/-- COMPLETION_TIMER (R101): IRQ_TIMER * 32 CK_NET cycles after the first advance since a restart, COMPLETION sets when
it is clear. -/
def execCompletionTimer (n : BitVec 16) (s : State) : Host.Outcome State Fault Refusal :=
  let n := n.toNat
  let t := s.gf (F.RING_IRQ_CTRL_IRQ_TIMER n)
  match (s.ring n).timerFrom with
  | none => done s
  | some c =>
    if decide (0 < t) && !s.flag (F.RING_STATUS_COMPLETION n) then
      done ((s.advanceTo (c + 32 * t)).raise (F.RING_STATUS_COMPLETION n))
    else done s

end Sys2Proof.Machine
end

