-- ==== Sys2Proof/Machine/Halyard.lean ====
section
/-! DEFINITION. Halyard messages and the request ledger (spec ch. 4): carriage, malformed messages, templates, the
ledger check and its transitions, and the frames that answer a message. -/

namespace Sys2Proof.Machine

/-- Message kinds (Table 4.2). -/
abbrev hkRequest : Nat := 1
abbrev hkReply : Nat := 2
abbrev hkUpdate : Nat := 3
abbrev hkUpdateAck : Nat := 4
abbrev hkControl : Nat := 5
abbrev hkControlAck : Nat := 6

/-- HLY_COUNT indices (Table 4.27). -/
def State.hlyCnt (s : State) (i : Nat) : State := s.cnt (R.HLY_COUNT i)

/-! ### Carriage -/

/-- Whether and how a frame is Halyard carriage (R102): 0 EtherType, 4 IPv4, 6 IPv6, and the frame offset of message
byte 0. -/
def State.carriageOf (s : State) (p : Nat) (b : List Byte) : Option (Nat × Nat) :=
  let i := s.frameInfo p b
  let o := i.body
  if s.flag F.HLY_CTRL_ETYPE_EN && decide (i.etype = s.gf F.HLY_ETYPE_ETYPE) then some (0, o)
  else if s.flag F.HLY_CTRL_V4_EN && decide (i.etype = 0x0800) && decide (beAt b o 1 = 0x45) &&
      decide (beAt b (o + 9) 1 = 17) && decide (beAt b (o + 6) 2 % 0x4000 = 0) &&
      decide (beAt b (o + 22) 2 = s.gf F.HLY_UDP_UDP_PORT) then some (4, o + 28)
  else if s.flag F.HLY_CTRL_V6_EN && decide (i.etype = 0x86DD) && decide (beAt b (o + 6) 1 = 17) &&
      decide (beAt b (o + 42) 2 = s.gf F.HLY_UDP_UDP_PORT) then some (6, o + 48)
  else none

/-- The carriage record an answer is built from (R104). -/
def State.carriage (s : State) (p : Nat) (b : List Byte) (ip off : Nat) : Carriage :=
  let i := s.frameInfo p b
  { head := slice b 0 off, hdr := slice b off 32, ip := ip, tagged := i.tagged, prio := i.prio }

/-- Ones' complement sum of 16-bit words, folded. -/
def sum16 (b : List Byte) : Nat :=
  let t := (List.range (b.length / 2)).foldl (fun a i => a + beAt b (2 * i) 2) 0
  let t := t % 65536 + t / 65536
  t % 65536 + t / 65536

/-- BODY_LEN and other header fields (Table 4.1). -/
def bodyLenOf (h : List Byte) : Nat := beAt h 16 2
def reqIdOf (h : List Byte) : Nat := beAt h 8 8
def kindOf (h : List Byte) : Nat := beAt h 1 1
def slotOf (h : List Byte) : Nat := beAt h 2 1 % 16
def tmplOf (h : List Byte) : Nat := beAt h 3 1 % 64

/-- The highest-placed malformed reason of a whole frame (R114, Table 4.11), as its HLY_COUNT index. -/
def State.malformed (s : State) (b : List Byte) (ip off : Nat) : Option Nat :=
  let avail := b.length - 4 - off
  let m := (b.take (b.length - 4)).drop off
  let bl := bodyLenOf m
  let l3 := if ip = 4 then off - 28 else off - 48
  let udpLen := beAt b (off - 4) 2
  let ipLen := if ip = 4 then beAt b (l3 + 2) 2 - 20 else beAt b (l3 + 4) 2
  let badLen :=
    (decide (ip ≠ 0) && (decide (36 + bl + 8 ≠ udpLen) || decide (udpLen ≠ ipLen))) ||
    decide (avail < 36 + bl) || (decide (64 < b.length) && decide (36 + bl < avail)) ||
    (decide (kindOf m = hkUpdate) &&
      (decide (bl ≠ 4 + 136 * beAt m 33 1) || decide (beAt m 33 1 = 0) || decide (64 < beAt m 33 1))) ||
    (decide (kindOf m = hkControl) && decide (bl < 108))
  if avail < 36 then some 0
  else if ip = 4 && decide (sum16 (slice b l3 20) ≠ 0xFFFF) then some 1
  else if beAt m 0 1 ≠ 1 then some 2
  else if kindOf m ≠ hkRequest && kindOf m ≠ hkUpdate && kindOf m ≠ hkControl then some 3
  else if badLen then some 4
  else if kindOf m = hkRequest && (!s.flag (F.TPL_CFG_VALID (tmplOf m)) ||
      decide (32 + bl ≤ s.gf (F.TPL_CFG_LAST_NEEDED (tmplOf m)))) then some 5
  else if crc32c (m.take (32 + bl)) ≠ beAt m (32 + bl) 4 then some 6
  else none

/-! ### Templates -/

/-- binary16 widened exactly to binary32 (a NaN stays a NaN). -/
def f16to32 (h : Nat) : Nat :=
  let sg := bits h 15 1
  let e := bits h 10 5
  let m := bits h 0 10
  sg * 2 ^ 31 +
    (if e = 31 then 0xFF * 2 ^ 23 + m * 2 ^ 13
     else if e = 0 then
       (if m = 0 then 0 else
         let k := Nat.log2 m
         (k + 103) * 2 ^ 23 + (m - 2 ^ k) * 2 ^ (23 - k))
     else (e + 112) * 2 ^ 23 + m * 2 ^ 13)

/-- A field converted to a feature (Table 4.12). -/
def fieldValue (ty : Nat) (m : List Byte) (o : Nat) : W32 :=
  BitVec.ofNat 32 (match ty with
    | 0 => beAt m o 1
    | 1 => beAt m o 2
    | 2 => min 0x7FFFFFFF (beAt m o 4)
    | 3 => unsgn 32 (sgn 8 (beAt m o 1))
    | 4 => unsgn 32 (sgn 16 (beAt m o 2))
    | 5 => beAt m o 4
    | 6 => beAt m o 2 * 65536
    | 7 => f16to32 (beAt m o 2)
    | _ => beAt m o 4)

/-- The features that the fields of a template fill, from message bytes (R115). -/
def State.fieldFeatures (s : State) (t : Nat) (m : List Byte) : List (Nat × Feature) :=
  (List.range 64).foldl (fun acc f =>
    if s.flag (F.TPL_FIELD_VALID t f) then
      tins (s.gf (F.TPL_FIELD_FEATURE t f))
        ⟨fieldValue (s.gf (F.TPL_FIELD_TYPE t f)) m (32 + s.gf (F.TPL_FIELD_OFFSET t f)), false⟩ acc
    else acc) []

/-- The valid keys of a template: (key number, table, entity, first feature, features), from message bytes. -/
def State.templateKeys (s : State) (t : Nat) (m : List Byte) : List (Nat × Nat × Nat × Nat) :=
  (List.range 8).filterMap fun k =>
    if s.flag (F.TPL_KEY_VALID t k) then
      some (s.gf (F.TPL_KEY_TABLE t k), beAt m (32 + s.gf (F.TPL_KEY_OFFSET t k)) 4, s.gf (F.TPL_KEY_FEAT_BASE t k),
        s.gf (F.TPL_KEY_COUNT_M1 t k) + 1)
    else none

/-! ### The ledger -/

/-- LEDGER_OCC follows the ledger (Table 4.22). -/
def State.syncLedger (s : State) : State :=
  let o := (s.hly.ledger.filter fun e => e.2.isOpen).length
  (s.sf F.HLY_LEDGER_OCC_OPEN o).sf F.HLY_LEDGER_OCC_ECHO (s.hly.ledger.length - o)

/-- Frees an entry. -/
def State.ledgerFree (s : State) (id : Nat) : State :=
  ({ s with hly := { s.hly with ledger := tdel id s.hly.ledger } }).syncLedger

/-- An OPEN entry becomes ECHO with its answer; the window in force applies (R123, R124). -/
def State.ledgerEcho (s : State) (id : Nat) (a : Answer) : State :=
  match tfind id s.hly.ledger with
  | none => s
  | some e =>
    let w := 32 * max 75 (s.gf F.HLY_ECHO_WINDOW_TICKS)
    let e' := { e with isOpen := false, answer := a, until_ := s.now + w }
    ({ s with hly := { s.hly with ledger := tins id e' s.hly.ledger } }).syncLedger

/-- Entry of the ledger for an ID. -/
def State.entry (s : State) (id : Nat) : Option LedgerEntry := tfind id s.hly.ledger

/-- The slot's active buffer, and whether the slot holds a model that serves (R119, R160).
Assumption log 53 (DEDUCED). -/
def State.activeBuf (s : State) (m : Nat) : Nat := s.gf (F.SLOT_STATUS_ACTIVE_BUF m)
def State.holdsModel (s : State) (m : Nat) : Bool :=
  s.flag (F.SLOT_STATUS_LOADED m) && !s.flag (F.SLOT_STATUS_FAULTED m)

/-- One buffer of a model slot. -/
def State.modelBuf (s : State) (m b : Nat) : ModelBuf := tget (fun _ => {}) s.teu.bufs (2 * m + b)
/-- Sets one buffer. -/
def State.setBuf (s : State) (m b : Nat) (x : ModelBuf) : State :=
  { s with teu := { s.teu with bufs := tset (fun _ => {}) s.teu.bufs (2 * m + b) x } }

/-- The REQUEST context of a request ID that is in the serving path. -/
def State.reqOf (s : State) (id : Nat) : Option (Nat × ReqCtx) :=
  s.cut.reqs.find? fun e => decide (e.2.id = id)

/-- Changes a REQUEST context. -/
def State.setReq (s : State) (key : Nat) (c : ReqCtx) : State :=
  { s with cut := { s.cut with reqs := tins key c s.cut.reqs } }
/-- Removes a REQUEST context. -/
def State.delReq (s : State) (key : Nat) : State :=
  { s with cut := { s.cut with reqs := tdel key s.cut.reqs } }
/-- Changes an UPDATE context. -/
def State.setUpd (s : State) (key : Nat) (u : UpdCtx) : State :=
  { s with hly := { s.hly with upds := tins key u s.hly.upds } }

/-- A ledger entry that reads as uncorrectable (Table 15.4) is freed and counted in LEDGER_UNCORR.
Assumption log 137 (DEDUCED). -/
def State.ledgerLost (s : State) (id : Nat) : State :=
  match s.entry id with
  | some _ => ((s.ledgerFree id).cnt (R.SEC_COUNT 9)).raise F.SEC_EVENTS_LEDGER_UNCORR
  | none => s

/-- The check of one message against the ledger (R119): its verdict, and the state with a new OPEN entry and its context
when it is admitted. `first` is the cycle of the frame's first byte; `memErr` when the entry of its ID reads as uncorrectable. -/
def State.ledgerVerdict (s : State) (p : Nat) (b : List Byte) (ip off : Nat) (first : Nat) (pre : Bool)
    (memErr : Bool := false) : Verdict × State :=
  let h := slice b off 32
  let id := reqIdOf h
  let kind := kindOf h
  let slot := slotOf h
  if s.recov.left then (.discard 20, s) else
  if kind = hkRequest && !s.holdsModel slot then (.discard 8, s) else
  let s := if memErr then s.ledgerLost id else s
  match s.entry id with
  | some e =>
    if e.isOpen then (.discard 9, s)
    else if e.kind = kind && (kind ≠ hkRequest || e.slot = slot) then (.echo, s)
    else (.discard 10, s)
  | none =>
    if 262144 ≤ s.hly.ledger.length then (.discard 11, s) else
    let key := s.hly.nextKey
    let ep := s.gf F.REC_SERVE_EPOCH_EPOCH
    let e : LedgerEntry := { isOpen := true, kind := kind, slot := if kind = hkRequest then slot else 0, port := p,
                             epoch := ep, order := key }
    let s1 := ({ s with hly := { s.hly with ledger := tins id e s.hly.ledger, nextKey := key + 1 } }).syncLedger
    let car := s.carriage p b ip off
    let s2 :=
      if kind = hkRequest then
        s1.setReq key { id := id, slot := slot, buf := s.activeBuf slot, port := p, tmpl := tmplOf h, epoch := ep,
                        order := key, car := car, bodyLen := bodyLenOf h, first := first, preemptable := pre,
                        msg := b.drop off }
      else if kind = hkUpdate then
        s1.setUpd key { id := id, port := p, order := key, epoch := ep, car := car, admitted := s.now,
                        limit := s.now + 32 * max 75 (s.gf F.HLY_UPD_TIMEOUT_TICKS) }
      else s1
    (.admitted key, s2)

/-- The slot for the message in flight on a port: the express and the preemptable MAC each carry one frame. -/
def flight (p : Nat) (pre : Bool) : Nat := 2 * p + b2n pre

/-- The ledger check of R119, one CK_NET cycle after header byte 31 crosses: only carriage that the filters accept, with
a valid VERSION and KIND, is checked. A module that has left its group admits nothing (R409).
Assumption log 41 (DEDUCED). -/
def State.ledgerCheck (s : State) (p : Nat) (b : List Byte) (first : Nat) (pre : Bool) (memErr : Bool := false) : State :=
  let i := s.frameInfo p b
  match s.carriageOf p b with
  | none => s
  | some (ip, off) =>
    let h := slice b off 32
    let ok := s.destOk p i b && s.etypeOk p i b && decide (off + 32 ≤ b.length) && decide (beAt h 0 1 = 1) &&
      (decide (kindOf h = hkRequest) || decide (kindOf h = hkUpdate) || decide (kindOf h = hkControl))
    if !ok then s else
    let (v, s1) := s.ledgerVerdict p b ip off first pre memErr
    { s1 with hly := { s1.hly with
      inMsg := tins (flight p pre) ⟨reqIdOf h, kindOf h, slotOf h, v⟩ s1.hly.inMsg } }

/-! ### Answers -/

/-- TTL or hop limit of answers (Table 4.19). -/
def State.hlyTtl (s : State) : Nat :=
  let t := s.gf F.HLY_TX_HLY_TTL
  if t = 0 then 64 else t

/-- The carriage headers of an answer to a message, for `n` message bytes (R104, R111). -/
def State.answerHead (s : State) (p : Nat) (c : Carriage) (n : Nat) : List Byte :=
  let d := slice c.head 0 6
  let src := if isGroup (beNat d) then beBytes 6 (s.gf (F.ETH_UCAST_ADDRESS p 0)) else d
  let l2 := slice c.head 6 6 ++ src
  let tag := if c.tagged then
      beBytes 2 0x8100 ++ beBytes 2 (beAt c.head 14 2 % 8192 + c.prio * 8192) else []
  let o := if c.tagged then 18 else 14
  let et := slice c.head (o - 2) 2
  let udp (k : Nat) : List Byte :=
    slice c.head (o + k + 2) 2 ++ slice c.head (o + k) 2 ++ beBytes 2 (n + 8) ++ beBytes 2 0
  if c.ip = 4 then
    let a := [0x45] ++ slice c.head (o + 1) 1 ++ beBytes 2 (n + 28) ++ beBytes 2 0 ++ beBytes 2 0x4000 ++
      beBytes 1 s.hlyTtl ++ beBytes 1 17
    let addrs := slice c.head (o + 16) 4 ++ slice c.head (o + 12) 4
    let ck := 0xFFFF - sum16 (a ++ addrs)
    l2 ++ tag ++ et ++ a ++ beBytes 2 ck ++ addrs ++ udp 20
  else if c.ip = 6 then
    l2 ++ tag ++ et ++ slice c.head o 4 ++ beBytes 2 (n + 8) ++ beBytes 1 17 ++ beBytes 1 s.hlyTtl ++
      slice c.head (o + 24) 16 ++ slice c.head (o + 8) 16 ++ udp 40
  else l2 ++ tag ++ et

/-- The 32-byte header of an answer (R106, R107): reserved bits are sent as zero. -/
def answerHdr (c : Carriage) (kind bodyLen : Nat) (echo : Bool) : List Byte :=
  beBytes 1 1 ++ beBytes 1 kind ++ beBytes 1 (slotOf c.hdr) ++ beBytes 1 (tmplOf c.hdr) ++ beBytes 2 (b2n echo) ++
    beBytes 2 0 ++ slice c.hdr 8 8 ++ beBytes 2 bodyLen ++ beBytes 2 0 ++ slice c.hdr 20 8 ++ beBytes 4 0

/-- A whole answer message: header, body and Halyard check (R108). -/
def answerMsg (c : Carriage) (kind : Nat) (body : List Byte) (echo : Bool) : List Byte :=
  let m := answerHdr c kind body.length echo ++ body
  m ++ beBytes 4 (crc32c m)

/-- A whole answer frame without its FCS. -/
def State.answerFrame (s : State) (p : Nat) (c : Carriage) (kind : Nat) (body : List Byte) (echo : Bool) : List Byte :=
  s.answerHead p c (36 + body.length) ++ answerMsg c kind body echo

/-- Offers an UPDATE_ACK, a CONTROL_ACK or an echo to its port; while the link is down it is counted and not sent, and
the answer is recorded at once (R46, R123). -/
def State.offerAnswer (s : State) (p id : Nat) (c : Carriage) (order kind : Nat) (body : List Byte) (echo : Bool) : State :=
  if s.linkUp p then
    s.modEth p fun e => { e with waiting := e.waiting ++
      [{ kind := .ack id, bytes := s.answerFrame p c kind body echo, prio := some c.prio, since := s.now, order := order,
         isReply := decide (kind = hkReply), echo := echo, answerKind := if echo then 0 else kind, answerBody := body }] }
  else
    let s1 := s.ethCnt p 51
    if echo then s1 else s1.ledgerEcho id { kind := kind, body := body }

/-- R122: the recorded answer goes out again with ECHO set; an echoed REPLY has PAD_LEN 0 and LATENCY_CYC 0. -/
def State.sendEcho (s : State) (p id : Nat) (c : Carriage) : State :=
  match s.entry id with
  | none => s
  | some e =>
    (s.hlyCnt 12).offerAnswer p id c e.order (e.kind + 1) e.answer.body true

/-- The recorded body of a closed REPLY: outputs and trailer with PAD_LEN 0 and LATENCY_CYC 0 (R122). -/
def replyBody (outs : List W32) (pad status pass lat epoch : Nat) : List Byte :=
  beBytes 2 outs.length ++ beBytes 2 0 ++ (outs.flatMap fun w => beBytes 4 w.toNat) ++ List.replicate pad 0 ++
    beBytes 2 pad ++ beBytes 2 status ++ beBytes 1 pass ++ beBytes 1 0 ++ beBytes 2 lat ++ beBytes 4 (epoch % 2 ^ 32) ++
    beBytes 4 0

/-- The body of a CONTROL_ACK (R113). -/
def ctlAckBody (op status : Nat) (result : List Byte) : List Byte := beBytes 2 op ++ beBytes 2 status ++ result

/-- The CONTROL_ACK of an operation that reached its end. -/
def State.controlAck (s : State) (m : CtlMsg) (status : Nat) (result : List Byte) : State :=
  let op := beAt m.msg 32 2
  s.offerAnswer m.port m.id m.car m.key hkControlAck (ctlAckBody op status result) false

/-- LEDGER_CHECK (R119, R120): the header of a message has crossed on a port; `bytes` are the frame's bytes so far,
`ago` the CK_NET cycles since its first byte crossed, `pre` whether it arrives in a preemptable mPacket, `memErr` whether
the entry that its ID finds reads as uncorrectable (R419): it is freed, and the message is admitted afresh.
Assumption log 137 (DEDUCED). -/
def execLedgerCheck (p : Fin 16) (bytes : List Byte) (ago : Nat) (pre memErr : Bool) (s : State) :
    Host.Outcome State Fault Refusal :=
  done (s.ledgerCheck p bytes (s.now - ago) pre memErr)

/-- ECHO_WINDOW_EXPIRED (R123): the entry is freed once its window has passed. -/
def execEchoWindowExpired (id : W64) (s : State) : Host.Outcome State Fault Refusal :=
  match s.entry id.toNat with
  | some e => if !e.isOpen then done ((s.advanceTo e.until_).ledgerFree id.toNat) else done s
  | none => done s

end Sys2Proof.Machine
end

