-- ==== Sys2Proof/Machine/Tree.lean ====
section
/-! DEFINITION. The tree ensemble engine (spec ch. 5): the node store and its window, the test at a node, issue,
reduction, link functions, SHED handling of a saturated request, and node-store scrub. -/

namespace Sys2Proof.Machine

/-- TEU_COUNT (Table 5.19). -/
def State.teuCnt (s : State) (i : Nat) (k : Nat := 1) : State := s.addCtr 48 (R.TEU_COUNT i) k
/-- CUT_COUNT (Table 6.21). -/
def State.cutCnt (s : State) (i : Nat) (k : Nat := 1) : State := s.addCtr 48 (R.CUT_COUNT i) k

/-! ### Node store -/

/-- STAGE_BLOCKS[s] (R133). -/
def State.stageBlocks (s : State) (st : Nat) : Nat := bits (s.rd (R.TEU_STAGE_BLOCKS (st / 4))).toNat (8 * (st % 4)) 7
/-- B_s, the first block of a stage. -/
def State.stageBase (s : State) (st : Nat) : Nat := (List.range st).foldl (fun a i => a + s.stageBlocks i) 0
/-- Global slot number of a node (R134). -/
def State.nodeSlot (s : State) (pipe stage x : Nat) : Nat := pipe * 16384 + 256 * s.stageBase stage + x
/-- The node in a global slot; a slot that holds none is all zero. -/
def State.node (s : State) (g : Nat) : Node := tget (fun _ => {}) s.teu.nodes g

/-- A node in store form, as its 16 bytes in the window (Tables 5.1, 5.2). -/
def Node.bytes (n : Node) : List Byte :=
  leBytes 4 n.value.toNat ++ leBytes 2 n.feature ++
    leBytes 1 (b2n n.leaf + 2 * b2n n.dfltRight + 4 * b2n n.cmpInt) ++ leBytes 1 n.output ++
    leBytes 2 n.left ++ leBytes 2 n.right ++ leBytes 1 (n.slot + 16 * n.buf + 128 * b2n n.inUse) ++ leBytes 3 0

/-! ### The test at a node -/

/-- Whether a sample goes right at an internal node (Table 5.3), whether DEFAULT_RIGHT decided, and whether the feature
read carries poison. -/
def nodeTest (n : Node) (f : Option Feature) : Bool × Bool × Bool :=
  match f with
  | none => (n.dfltRight, true, false)
  | some v =>
    if !n.cmpInt && isNan v.pat then (n.dfltRight, true, v.poison)
    else if n.cmpInt then (!decide (v.pat.toInt ≤ n.value.toInt), false, v.poison)
    else (!fle v.pat n.value, false, v.poison)

/-- What one tree's walk yields: its leaf's value and output, tests decided by default, poison met, slots read. -/
structure Walk where
  value : W32 := 0
  output : Nat := 0
  defaults : Nat := 0
  poison : Bool := false
  read : List Nat := []
  deriving DecidableEq, Repr

/-- Walks a tree from stage-local index `x` of a stage of a pipe, at most `fuel` levels (R137, R138). -/
def State.walk (s : State) (feats : List (Nat × Feature)) (bad : List Nat) (pipe : Nat) :
    Nat → Nat → Nat → Walk → Walk
  | 0, _, _, w => w
  | fuel + 1, stage, x, w =>
    let g := s.nodeSlot pipe stage x
    let n := s.node g
    let w := { w with read := w.read ++ [g], poison := w.poison || bad.contains g }
    if n.leaf then { w with value := n.value, output := n.output }
    else
      let (right, dflt, pz) := nodeTest n (tfind n.feature feats)
      s.walk feats bad pipe fuel (stage + 1) (if right then n.right else n.left)
        { w with defaults := w.defaults + b2n dflt, poison := w.poison || pz }

/-- The walk of tree `j` of a model (R139): a pass-1 tree from stage 0, a pass-2 tree from stage 32 - D. -/
def State.treeWalk (s : State) (b : ModelBuf) (feats : List (Nat × Feature)) (bad : List Nat) (j : Nat) : Walk :=
  let p2 := decide (b.t1 ≤ j)
  let pipe := (if p2 then j - b.t1 else j) % 64
  s.walk feats bad pipe 33 (if p2 then 32 - b.depth else 0) (b.roots.getD j 0) {}

/-- One adder level of the reducer: neighbours are added. -/
def addPairs : List W32 → List W32
  | a :: b :: t => fadd a b :: addPairs t
  | l => l

/-- The sum of the 64 pipes at one exit cycle: six levels of neighbours (R147). -/
def pipeSum (l : List W32) : W32 := ((List.range 6).foldl (fun l _ => addPairs l) l).headD 0

/-- Output `o` of a sample before the link: the exit cycles in ascending order, pass 1 before pass 2, then BASE (R147). -/
def reduceOut (b : ModelBuf) (ws : List Walk) (o : Nat) : W32 :=
  let cycleSum (lo n : Nat) (i : Nat) : W32 :=
    pipeSum ((List.range 64).map fun p =>
      let j := 64 * i + p
      if j < n then
        let w := ws.getD (lo + j) {}
        if w.output = o then w.value else 0
      else 0)
  let k := cdiv b.t1 64
  let k2 := cdiv (b.trees - b.t1) 64
  let a1 := (List.range k).foldl (fun a i => fadd a (cycleSum 0 b.t1 i)) 0
  let a2 := (List.range k2).foldl (fun a i => fadd a (cycleSum b.t1 (b.trees - b.t1) i)) a1
  fadd a2 (b.base.getD o 0)

/-- A value with every NaN as the one pattern. -/
def canonNan (w : W32) : W32 := if isNan w then qnan else w

/-- Outputs from the sums (R148, Table 5.6). -/
def linkOut (link : Nat) (ys : List W32) : List W32 :=
  let one : W32 := 0x3F800000
  match link with
  | 1 => ys.map fun y => fdiv one (fadd one (fexp (fenc (fvNeg (fdec y)))))
  | 2 =>
    let m := ys.foldl fmaxNan (ys.headD 0)
    let es := ys.map fun y => fexp (fsub y m)
    let t := es.tail.foldl fadd (es.headD 0)
    es.map fun e => fdiv e t
  | 3 => ys.map fexp
  | _ => ys.map canonNan

/-! ### Binding and freeing of buffers -/

/-- Whether a request still bound to a buffer remains in the serving path (R157). -/
def State.bufBound (s : State) (m b : Nat) : Bool :=
  s.cut.reqs.any fun e => decide (e.2.slot = m) && decide (e.2.buf = b) &&
    (match e.2.stage with
     | .ready => false
     | .launched => false
     | .gone => false
     | _ => true)

/-- Frees a buffer's nodes: their slots hold no node (R157). -/
def State.freeBuf (s : State) (m b : Nat) : State :=
  (({ s with teu := { s.teu with
      nodes := s.teu.nodes.filter fun e => !(decide (e.2.slot = m) && decide (e.2.buf = b)) } }).setBuf m b {})

/-- FREE_MIN (Table 5.18): the smallest number of free slots of each stage over the 64 pipes. -/
def State.syncFreeMin (s : State) : State :=
  (List.range 32).foldl (fun s st =>
    let cap := 256 * s.stageBlocks st
    let base := 256 * s.stageBase st
    let used (p : Nat) : Nat := (s.teu.nodes.filter fun e =>
      decide (e.1 / 16384 = p) && decide (base ≤ e.1 % 16384) && decide (e.1 % 16384 < base + cap)).length
    let m := (List.range 64).foldl (fun a p => max a (used p)) 0
    s.sf (F.TEU_FREE_MIN_FREE st) (cap - m)) s

/-! ### SHED -/

/-- A request's reply is built and ready from cycle `at_` on (R175), under the launch mode and pad cap in force (Table
6.11). -/
def State.markReady (s : State) (key : Nat) (c : ReqCtx) (at_ : Nat) : State :=
  s.setReq key { c with stage := .ready, replyAt := at_, waits := [],
                        aligned := (s.gf F.CUT_CTRL_ALIGNED_PORTS).testBit c.port,
                        padCap := min 8192 (s.gf F.CUT_CTRL_PAD_CAP) }

/-- How many entries of a queue have entered it: those whose ready cycle has come, at most the queue's 1,024 places. -/
def State.occ (s : State) (q : List Nat) : Nat :=
  min 1024 (q.countP fun k => match tfind k s.cut.reqs with | some c => decide (c.readyAt ≤ s.now) | none => false)

/-- OCC of the tree engine's QUEUE_OCC: the samples in the sample queue (R142, R143). Assumption log 47 (DEDUCED). -/
def State.sampleOcc (s : State) : Nat := s.occ s.teu.queue

/-- BRIDGEQ of the serving path's QUEUE_OCC: the requests in the bridge ingress queue (R186).
Assumption log 47 (DEDUCED). -/
def State.bridgeOcc (s : State) : Nat := s.occ s.cut.bridgeQ

/-- MISSQ of QUEUE_OCC, and PIN_OCC, of the serving path (Tables 6.13, 6.14). -/
def State.syncCut (s : State) : State :=
  let s1 := s.sf F.CUT_QUEUE_OCC_MISSQ s.cut.miss.length
  let asm := (s.cut.reqs.filter fun e => e.2.stage == .assembly).length
  let pins := (s.cut.lines.filter fun e => decide (0 < e.2.pins)).length
  (s1.sf F.CUT_PIN_OCC_ASSEMBLY asm).sf F.CUT_PIN_OCC_PINNED pins

/-- A request leaves every queue of the serving path: the miss queue's waiters, the sample queue, the bridge queue. -/
def State.leaveQueues (s : State) (key : Nat) : State :=
  ({ s with
      cut := { s.cut with
        miss := s.cut.miss.map fun (e : Nat × MissSlot) => (e.1, { e.2 with reqs := e.2.reqs.filter fun k => decide (k ≠ key) }),
        bridgeQ := s.cut.bridgeQ.filter fun k => decide (k ≠ key) },
      teu := { s.teu with queue := s.teu.queue.filter fun k => decide (k ≠ key) } }).syncCut

/-- A request saturated in cycle `at_` is handled by the SHED_MODE of the buffer it is bound to (R188, R189): answered
with FALLBACK, the reply ready after reply build and transmit handoff, or dropped and its entry freed.
Assumption log 45 (DEDUCED). -/
def State.shed (s : State) (key : Nat) (c : ReqCtx) (at_ : Nat) : State :=
  let b := s.modelBuf c.slot c.buf
  let s1 := s.leaveQueues key
  if b.shedMode = 0 then
    s1.markReady key { c with shed := true, outputs := b.fallback.take b.nOut } (at_ + 14)
  else
    let s2 := (((s1.delReq key).ledgerFree c.id).addCtr 48 (R.CUT_SHED_DROPPED c.slot) 1).raise F.CUT_EVENTS_SHED_DROP
    match c.ring with
    | some n => s2.recordDecide n key false 0 0
    | none => s2

/-- Whether a queued request comes after one that is ready in cycle `r` on port `p` (R142). -/
def State.after (s : State) (r p k : Nat) : Bool :=
  match tfind k s.cut.reqs with
  | some d => decide (r < d.readyAt) || (decide (d.readyAt = r) && decide (p < d.port))
  | none => false

/-- A queue in the order of the ready cycles, ascending port order within one (R142), with a request put in.
Assumption log 47 (DEDUCED). -/
def State.queueIn (s : State) (q : List Nat) (key r p : Nat) : List Nat :=
  (q.takeWhile fun k => !s.after r p k) ++ key :: q.dropWhile fun k => !s.after r p k

/-- The requests of a queue that met its 1,024 places full in their ready cycle, a past one (R143, R188).
Assumption log 47 (DEDUCED). -/
def State.overflow (s : State) (q : List Nat) : List (Nat × ReqCtx) :=
  (q.drop 1024).filterMap fun k =>
    match tfind k s.cut.reqs with
    | some c => if c.readyAt < s.now then some (k, c) else none
    | none => none

/-- Samples that met a full sample queue are handled by their SHED policy, as of their ready cycle (R143).
Assumption log 45 (DEDUCED), 47 (DEDUCED). -/
def State.flushSamples (s : State) : State :=
  (s.overflow s.teu.queue).foldl (fun s x => ((s.teuCnt 4).raise F.TEU_EVENTS_QUEUE_FULL).shed x.1 x.2 x.2.readyAt) s

/-- Requests that met a full bridge ingress queue are handled by their SHED policy (R188).
Assumption log 45 (DEDUCED). -/
def State.flushBridge (s : State) : State :=
  (s.overflow s.cut.bridgeQ).foldl (fun s x => ((s.cutCnt 5).raise F.CUT_EVENTS_BRIDGEQ_FULL).shed x.1 x.2 x.2.readyAt) s

/-- A complete feature vector of a TREE request: the sample is ready in the next cycle and takes its place in the sample
queue (R142). Assumption log 47 (DEDUCED). -/
def State.sampleReady (s : State) (key : Nat) (c : ReqCtx) (complete : Nat) : State :=
  let s0 := s.flushSamples
  ({ s0.setReq key { c with stage := .queued, readyAt := complete + 1, waits := [] } with
      teu := { s0.teu with queue := s0.queueIn s0.teu.queue key (complete + 1) c.port } }).syncCut

/-- A complete feature vector of a NEURAL request: it takes its place in the bridge ingress queue (R186). -/
def State.bridgeReady (s : State) (key : Nat) (c : ReqCtx) (complete : Nat) : State :=
  let s0 := s.flushBridge
  let s1 := s0.setReq key { c with stage := .bridgeQueue, readyAt := complete + 1, waits := [] }
  ({ s1 with cut := { s1.cut with bridgeQ := s0.queueIn s0.cut.bridgeQ key (complete + 1) c.port } }).syncCut

/-- FEATURE_VECTOR_COMPLETE (R171). Assumption log 47 (DEDUCED). -/
def State.vectorComplete (s : State) (key : Nat) (c : ReqCtx) (complete : Nat) : State :=
  if (s.modelBuf c.slot c.buf).neural then s.bridgeReady key c complete else s.sampleReady key c complete

/-! ### Issue -/

/-- Whether two runs of consecutive cycles meet. -/
def meets (a b : Nat × Nat) : Bool := decide (a.1 < b.1 + b.2) && decide (b.1 < a.1 + a.2)

/-- The entry and exit cycles a sample of a model would reserve from cycle t (R145). -/
def entRuns (b : ModelBuf) (t : Nat) : List (Nat × Nat) :=
  let k := cdiv b.t1 64
  (t, k) :: (if b.passes = 2 then [(t + max k b.depth, k)] else [])
def extRuns (b : ModelBuf) (t : Nat) : List (Nat × Nat) :=
  let k := cdiv b.t1 64
  (t + b.depth, k) :: (if b.passes = 2 then [(t + max k b.depth + 32, k)] else [])

/-- Whether a sample of a model may start at cycle t (R145). -/
def State.mayStart (s : State) (b : ModelBuf) (t : Nat) : Bool :=
  (match s.teu.lastStart with | some l => decide (l < t) | none => true) &&
  (entRuns b t).all (fun r => s.teu.entries.all fun x => !meets r x) &&
  (extRuns b t).all (fun r => s.teu.exits.all fun x => !meets r x)

/-- Last exit cycle of a sample started at t (Table 5.5). -/
def lastExit (b : ModelBuf) (t : Nat) : Nat :=
  let k := cdiv b.t1 64
  if b.passes = 2 then t + max k b.depth + k + 31 else t + k + b.depth - 1

/-- SAMPLE_START (R145): the sample at the head of the sample queue starts in the first cycle, from its ready cycle on,
whose reservations are free. Assumption log 47 (DEDUCED). -/
def execSampleStart (s : State) : Host.Outcome State Fault Refusal :=
  match s.teu.queue with
  | [] => done s
  | key :: rest =>
    match tfind key s.cut.reqs with
    | none => done { s with teu := { s.teu with queue := rest } }
    | some c =>
      let b := s.modelBuf c.slot c.buf
      let from_ := max s.now c.readyAt
      let s := (s.advanceTo (from_ + ((List.range 65536).find? fun k => s.mayStart b (from_ + k)).getD 0)).flushSamples
      let live (r : Nat × Nat) : Bool := decide (s.now < r.1 + r.2)
      let s1 := { s with teu := { s.teu with
        queue := s.teu.queue.tail, lastStart := some s.now,
        entries := s.teu.entries.filter live ++ entRuns b s.now,
        exits := s.teu.exits.filter live ++ extRuns b s.now } }
      let s2 := s1.setReq key { c with stage := .running, startAt := s.now }
      done (if s.now = c.readyAt then s2 else (s2.teuCnt 5).teuCnt 6 (s.now - c.readyAt))

/-- Marks the slot of a node FAULTED (R160). -/
def State.faultSlot (s : State) (m : Nat) : State :=
  (s.setFaulted m).raise F.TEU_EVENTS_NODE_UNCORR

/-- SAMPLE_COMPLETE (R146 to R151, R160): the sample of a request has exited, been reduced and linked. `bad` are node
slots whose read is uncorrectable, `fixed` how many reads were corrected. -/
def execSampleComplete (id : W64) (bad : List (BitVec 20)) (fixed : Nat) (s : State) : Host.Outcome State Fault Refusal :=
  match s.reqOf id.toNat with
  | none => done s
  | some (key, c) =>
    let b := s.modelBuf c.slot c.buf
    if c.stage ≠ .running then done s else
    let s := s.advanceTo (lastExit b c.startAt + 12)
    let badN := bad.map (·.toNat)
    let ws := (List.range b.trees).map fun j => s.treeWalk b c.features badN j
    let poison := ws.any (·.poison)
    let hit := ws.any fun w => w.read.any badN.contains
    let outs := if poison then List.replicate b.nOut qnan
      else linkOut b.link ((List.range b.nOut).map (reduceOut b ws))
    let s1 := (((s.teuCnt 0).teuCnt 2 b.trees).teuCnt 3 (ws.foldl (fun a w => a + w.defaults) 0)).cnt
      (R.SLOT_SAMPLES c.slot)
    let s2 := if b.passes = 2 then s1.teuCnt 1 else s1
    let s3 := if fixed = 0 then s2 else (s2.teuCnt 11 fixed).raise F.TEU_EVENTS_NODE_CORR
    let s4 := if hit then s3.faultSlot c.slot else s3
    match c.checks with
    | .dropped _ => done (s4.delReq key)
    | _ =>
      let s5 := if poison then (s4.teuCnt 8).raise F.TEU_EVENTS_POISONED
        else if outs.any (fun w => !isFin w) then (s4.teuCnt 7).raise F.TEU_EVENTS_NONFINITE else s4
      done (s5.markReady key { c with outputs := outs, poisoned := poison } (lastExit b c.startAt + 12 + 14))

/-- The scrubber reads the next node of the store (R160). -/
def State.nodeScrub (s : State) (err : Nat) : State :=
  let g := s.teu.scrubNext
  let n := s.node g
  let s1 := { s with teu := { s.teu with scrubNext := (g + 1) % 1048576 } }
  if err = 1 then (s1.teuCnt 11).raise F.TEU_EVENTS_NODE_CORR
  else if err = 2 then
    if n.inUse then s1.faultSlot n.slot
    else { s1 with teu := { s1.teu with nodes := tdel g s1.teu.nodes } }
  else s1

/-- NODE_SCRUB (R160): the scrubber reads the next node: nothing found, a single-bit error corrected, or an
uncorrectable one (`err` 0, 1, 2). -/
def execNodeScrub (err : Fin 3) (s : State) : Host.Outcome State Fault Refusal := done (s.nodeScrub err.val)

end Sys2Proof.Machine
end

