-- ==== Sys2Proof/Machine/Cut.lean ====
section
/-! DEFINITION. Feature lookup (spec ch. 6): entity tables, the feature cache and its miss queue, invalidation, pinned
lines and the commit of UPDATEs, and the grid-offload queue. -/

namespace Sys2Proof.Machine

/-! ### Entity tables and cache lines -/

/-- Whether an entity lies inside its configured table (R162, R163). -/
def State.entityOk (s : State) (t e : Nat) : Bool :=
  s.flag (F.CUT_TABLE_BASE_VALID t) && decide (e < s.gf (F.CUT_TABLE_SIZE_ENTITIES t))

/-- Global address of an entity's row (R162). -/
def State.rowAddr (s : State) (t e : Nat) : Nat := s.gf (F.CUT_TABLE_BASE_BASE t) * 128 + 128 * e

/-- The set of an entity's line (R165). -/
def cacheSet (t e : Nat) : Nat :=
  (bits e 0 15 ^^^ bits e 15 15 ^^^ (bits e 30 2 <<< 13) ^^^ (t <<< 11)) % 32768

/-- The way that holds an entity's line, as the line's number set * 16 + way. -/
def State.lineOf (s : State) (t e : Nat) : Option (Nat × CacheLine) :=
  s.cut.lines.find? fun x => decide (x.2.table = t) && decide (x.2.entity = e)

/-- Changes one line. -/
def State.setLine (s : State) (k : Nat) (l : CacheLine) : State :=
  { s with cut := { s.cut with lines := tins k l s.cut.lines } }

/-- Marks a line used, for the replacement of R165. -/
def State.touch (s : State) (k : Nat) (l : CacheLine) : State :=
  let s1 := s.setLine k { l with used := s.cut.useCtr + 1 }
  { s1 with cut := { s1.cut with useCtr := s.cut.useCtr + 1 } }

/-- The way a fill takes: a free one, else the least recently used one that is not pinned (R165). -/
def State.victim (s : State) (set : Nat) : Option Nat :=
  let ways := (List.range 16).map fun w => (set * 16 + w, tfind (set * 16 + w) s.cut.lines)
  match ways.find? fun x => x.2.isNone with
  | some x => some x.1
  | none =>
    (ways.foldl (fun (b : Option (Nat × Nat)) x =>
      match x.2 with
      | some l =>
        if 0 < l.pins then b else
        match b with
        | none => some (x.1, l.used)
        | some (_, u) => if l.used < u then some (x.1, l.used) else b
      | none => b) none).map (·.1)

/-- A fetched row is filled into the cache. -/
def State.fill (s : State) (t e : Nat) (data : List Byte) : State :=
  match s.victim (cacheSet t e) with
  | none => s
  | some k => s.touch k { table := t, entity := e, data := data }

/-- Pinned lines of a set (R170 step 2). -/
def State.pinsOfSet (s : State) (set : Nat) : Nat :=
  (s.cut.lines.filter fun x => decide (x.1 / 16 = set) && decide (0 < x.2.pins)).length

/-- Every pending fetch of a table of a mask is stale (R169). Assumption log 139 (DEDUCED). -/
def markStale (mask : Nat) (ms : List (Nat × MissSlot)) : List (Nat × MissSlot) :=
  ms.map fun x => if mask.testBit x.2.table then (x.1, { x.2 with stale := true }) else x

/-- The invalidation walk has visited every set below `now - W` (R169): it invalidates the unpinned lines of its tables.
The fetches pending at the end of cycle W are stale. -/
def State.walkAdvance (s : State) : State :=
  if s.cut.walkTables = 0 || decide (s.now < s.cut.walkFrom) then s else
  let s := { s with cut := { s.cut with miss := markStale s.cut.walkMark s.cut.miss, walkMark := 0 } }
  let hi := min 32768 (s.now + 1 - s.cut.walkFrom)
  if hi ≤ s.cut.walkNext then s else
  let gone (x : Nat × CacheLine) : Bool :=
    decide (s.cut.walkNext ≤ x.1 / 16) && decide (x.1 / 16 < hi) && s.cut.walkTables.testBit x.2.table &&
      decide (x.2.pins = 0)
  { s with cut := { s.cut with lines := s.cut.lines.filter fun x => !gone x, walkNext := hi } }

/-! ### Misses -/

/-- A free slot of the miss queue (R166). -/
def State.freeSlot (s : State) : Option Nat :=
  if 4096 ≤ s.cut.miss.length then none
  else (List.range 4096).find? fun k => (tfind k s.cut.miss).isNone

/-- Changes a miss slot. -/
def State.setMiss (s : State) (k : Nat) (m : MissSlot) : State :=
  { s with cut := { s.cut with miss := tins k m s.cut.miss } }

/-- Issues the fetch of a slot's row: over the memory network for the module's own HBM, else over the Rigging (R168). -/
def State.issueFetch (s : State) (k : Nat) (t e epoch : Nat) : State :=
  let a := s.rowAddr t e
  if s.isOwn (gModule a) then s else s.issue (.missEngine k) 0 opRead a 128 0 0 [] (some epoch)

/-- Allocates a slot and issues its fetch, counting the miss. Assumption log 139 (DEDUCED). -/
def State.allocMiss (s : State) (k t e epoch : Nat) (reqs upds : List Nat) : State :=
  let lim := s.now + 32 * max 75 (s.gf F.CUT_MISS_TIMEOUT_TICKS)
  ((s.setMiss k { table := t, entity := e, issued := s.now, limit := lim, reqs := reqs, upds := upds }).cutCnt 2).issueFetch
    k t e epoch

/-- A pending fetch that a key looked up now may join (R166, R169). -/
def State.joinable (s : State) (t e : Nat) : Option (Nat × MissSlot) :=
  s.cut.miss.find? fun x => decide (x.2.table = t) && decide (x.2.entity = e) &&
    (!x.2.stale || s.flag F.CUT_STATUS_INVAL_BUSY)

/-- The features an entity's row gives a key: features 0 to n - 1 of the row from FEAT_BASE on (R115, R162). -/
def rowFeatures (fs : List (Nat × Feature)) (data : List Byte) (base n : Nat) (poison : Bool) : List (Nat × Feature) :=
  (List.range n).foldl (fun fs j =>
    tins (base + j) ⟨if poison then 0 else BitVec.ofNat 32 (leAt data (4 * j) 4), poison⟩ fs) fs

/-- A hit whose line reads as uncorrectable in the half-lines `p` (Table 15.4): counted in FCACHE_UNCORR; an unpinned line
is invalidated and a pinned one keeps its mark. Assumption log 137 (DEDUCED). -/
def State.lineLost (s : State) (ln : Nat) (l : CacheLine) (p : Nat) : State :=
  let s1 := (s.cnt (R.SEC_COUNT 8)).raise F.SEC_EVENTS_FCACHE_UNCORR
  if l.pins = 0 then { s1 with cut := { s1.cut with lines := tdel ln s1.cut.lines } }
  else match tfind ln s1.cut.lines with
    | some x => s1.setLine ln { x with poison := p }
    | none => s1

/-- Looks up one key of a request (R163, R166, R167), whose line reads as uncorrectable in the half-lines `err`. The flag
says that a full miss queue was met. -/
def State.lookupKey (s : State) (key : Nat) (c : ReqCtx) (full : Bool) (k : Nat × Nat × Nat × Nat) (err : Nat := 0) :
    State × ReqCtx × Bool :=
  let (t, e, base, n) := k
  let s := s.cutCnt 0
  if !s.entityOk t e then (s, c, full) else
  match s.lineOf t e with
  | some (ln, l) =>
    if (s.joinable t e).isSome then (s, c, full)
    else
      let p := l.poison ||| err
      let s1 := (s.touch ln l).cutCnt 1
      (if p = 0 then s1 else s1.lineLost ln l p, { c with features := rowFeatures c.features l.data base n (p != 0) }, full)
  | none =>
    let c := { c with missed := true }
    if full then (s, c, true) else
    let room := !c.waits.isEmpty || decide ((s.cut.reqs.filter fun x => x.2.stage == .assembly).length < 4096)
    if !room then (s, c, true) else
    match s.joinable t e with
    | some (m, x) =>
      ((s.setMiss m { x with reqs := if x.reqs.contains key then x.reqs else x.reqs ++ [key] }).cutCnt 3,
       { c with waits := if c.waits.contains m then c.waits else c.waits ++ [m] }, false)
    | none =>
      match s.freeSlot with
      | none => (s, c, true)
      | some m => (s.allocMiss m t e c.epoch [key] [], { c with waits := c.waits ++ [m] }, false)

/-- The lookups of an admitted REQUEST whose needed bytes have arrived (R163 to R167). `bad` lists lookups, counted from 0,
whose line reads as uncorrectable, each with its half-lines. -/
def State.cacheLookup (s : State) (key : Nat) (c : ReqCtx) (msg : List Byte) (ago : Nat)
    (bad : List (Byte × Fin 4) := []) : State :=
  let s0 := s.walkAdvance
  let m := if c.msg.length < msg.length then msg else c.msg
  let c0 := { c with msg := m, needed := s.now - ago, features := s.fieldFeatures c.tmpl m }
  let err (i : Nat) : Nat := (bad.filter fun e => e.1.toNat = i).foldl (fun m e => m ||| e.2.val) 0
  let (s1, c1, full) := (s.templateKeys c.tmpl m).zipIdx.foldl
    (fun (acc : State × ReqCtx × Bool) k => acc.1.lookupKey key acc.2.1 acc.2.2 k.1 (err k.2)) (s0, c0, false)
  if full then (((s1.cutCnt 4).raise F.CUT_EVENTS_MISSQ_FULL).shed key c1 s.now).syncCut
  else if c1.waits.isEmpty then (s1.vectorComplete key c1 (c1.needed + 24)).syncCut
  else (s1.setReq key { c1 with stage := .assembly }).syncCut

/-- CACHE_LOOKUP (R166, R167, R171): the last needed byte of a request crossed `ago` cycles back; `msg` holds its message
bytes so far. `bad` lists the lookups, counted from 0, whose line reads as uncorrectable (R419), and in which of its
half-lines. Assumption log 137 (DEDUCED). -/
def execCacheLookup (id : W64) (msg : List Byte) (ago : Nat) (bad : List (Byte × Fin 4)) (s : State) :
    Host.Outcome State Fault Refusal :=
  match s.reqOf id.toNat with
  | none => done s
  | some (key, c) => done (if c.stage = .admitted then s.cacheLookup key c msg ago bad else s)

/-! ### UPDATE lines -/

/-- The lines an UPDATE names, each once. -/
def UpdCtx.rows (u : UpdCtx) : List Nat := (u.entries.map (·.entity)).eraseDups

/-- Tries to make one line of an UPDATE present and pinned (R170 steps 1 and 2). -/
def State.pinRow (s : State) (key e : Nat) : State :=
  match tfind key s.hly.upds with
  | none => s
  | some u =>
    if u.pinned.contains e then s else
    let set := cacheSet u.table e
    match s.lineOf u.table e with
    | some (ln, l) =>
      if l.pins = 0 && decide (8 ≤ s.pinsOfSet set) then
        if u.waitedPin then s else (s.setUpd key { u with waitedPin := true }).raise F.CUT_EVENTS_PIN_WAIT
      else
        let u' := { u with pinned := u.pinned ++ [e] }
        let u'' := if (u.rows.all u'.pinned.contains) then { u' with pinnedAt := some s.now } else u'
        (s.setLine ln { l with pins := l.pins + 1 }).setUpd key u''
    | none =>
      if 8 ≤ s.pinsOfSet set then
        if u.waitedPin then s else (s.setUpd key { u with waitedPin := true }).raise F.CUT_EVENTS_PIN_WAIT
      else
        match s.joinable u.table e with
        | some (m, x) => if x.upds.contains key then s else s.setMiss m { x with upds := x.upds ++ [key] }
        | none =>
          match s.freeSlot with
          | none => s
          | some m => s.allocMiss m u.table e u.epoch [] [key]

/-- Every UPDATE whose entries are known, in admission order, tries for the lines it still lacks. -/
def State.pinAll (s : State) : State :=
  s.hly.upds.foldl (fun s x => if x.2.known then x.2.rows.foldl (fun s e => s.pinRow x.1 e) s else s) s.walkAdvance

/-- Drops one pin of a line. -/
def State.unpin (s : State) (t e : Nat) : State :=
  match s.lineOf t e with
  | some (ln, l) => s.setLine ln { l with pins := l.pins - 1 }
  | none => s

/-! ### Fetch completion -/

/-- The features of a request once the row of a fetch has come: every key of its template that names the row. -/
def State.takeRow (s : State) (m : MissSlot) (data : List Byte) (poison : Bool) (c : ReqCtx) : List (Nat × Feature) :=
  (s.templateKeys c.tmpl c.msg).foldl (fun fs (k : Nat × Nat × Nat × Nat) =>
    if k.1 = m.table && k.2.1 = m.entity then rowFeatures fs data k.2.2.1 k.2.2.2 poison else fs) c.features

/-- A waiting request takes the row of a completed fetch, or its poison (R168); its vector may then be complete. -/
def State.deliver (s : State) (slot : Nat) (m : MissSlot) (data : List Byte) (poison : Bool) (key : Nat) : State :=
  match tfind key s.cut.reqs with
  | none => s
  | some c =>
    let c1 := { c with features := s.takeRow m data poison c, waits := c.waits.filter fun x => decide (x ≠ slot), arrived := s.now }
    if c1.waits.isEmpty then s.vectorComplete key c1 (max (c1.needed + 24) (s.now + 4)) else s.setReq key c1

/-- A fetch ends in failure (R168, R170): its waiting features carry poison; an UPDATE's fetch is issued again.
Assumption log 139 (DEDUCED). -/
def State.fetchFail (s : State) (k : Nat) (m : MissSlot) : State :=
  let s1 := (s.cutCnt 6).raise F.CUT_EVENTS_FETCH_POISON
  let s2 := if m.upds.isEmpty then { s1 with cut := { s1.cut with miss := tdel k s1.cut.miss } }
    else (s1.setMiss k { m with reqs := [], issued := s.now, stale := false,
                                limit := s.now + 32 * max 75 (s.gf F.CUT_MISS_TIMEOUT_TICKS) }).issueFetch k m.table m.entity
            (s.gf F.REC_SERVE_EPOCH_EPOCH)
  (m.reqs.foldl (fun s key => s.deliver k m [] true key) s2).syncCut

/-- A fetch returns its row (R168, R169): filled unless stale, the slot freed, every waiter served. -/
def State.fetchDone (s : State) (k : Nat) (m : MissSlot) (data : List Byte) : State :=
  let s1 := { s with cut := { s.cut with miss := tdel k s.cut.miss } }
  let s2 := if m.stale then s1 else s1.fill m.table m.entity data
  let s3 := m.reqs.foldl (fun s key => s.deliver k m data false key) s2
  (s3.pinAll).syncCut

/-- A returning fetch: its 128 bytes fill the line, or its error ends it (R168). -/
def State.fetchReturn (s : State) (slot : Nat) (m : MissSlot) (ext : Option (List Byte)) : State :=
  let (x, s0) := s.takeEnded (.missEngine slot) ext
  let (d, s1) := s0.dmaRead (s.rowAddr m.table m.entity + 2 ^ 63) 128 x
  match d with
  | some data => s1.fetchDone slot m data
  | none => s1.fetchFail slot m

/-- MISS_FETCH_COMPLETE (R168): the fetch of a miss slot returns; `ext` is what another module returned, none an error
completion or poisoned data. -/
def execMissFetchComplete (slot : BitVec 12) (ext : Option (List Byte)) (s : State) : Host.Outcome State Fault Refusal :=
  let s := s.walkAdvance
  match tfind slot.toNat s.cut.miss with
  | none => done s
  | some m => done (s.fetchReturn slot.toNat m ext)

/-- MISS_TIMEOUT (R168): a fetch has not returned MISS_TIMEOUT CK_TICK cycles after its issue. -/
def execMissTimeout (slot : BitVec 12) (s : State) : Host.Outcome State Fault Refusal :=
  match tfind slot.toNat s.cut.miss with
  | none => done s
  | some m => done ((s.advanceTo m.limit).walkAdvance.fetchFail slot.toNat m)

/-! ### Invalidation -/

/-- A write of 1 bits to TABLE_INVALIDATE (R169). W is the last CK_NET cycle of the write's CK_MGMT cycle. -/
def State.invalidate (s : State) (mask : Nat) : State :=
  if mask = 0 then s else
  let s0 := s.walkAdvance
  let w := s.now / 8 * 8 + 7
  let s1 := { s0 with cut := { s0.cut with
    walkTables := s0.cut.walkTables ||| mask, walkFrom := w + 1, walkNext := 0, walkMark := s0.cut.walkMark ||| mask } }
  s1.sf F.CUT_STATUS_INVAL_BUSY 1

/-- TABLE_INVALIDATE (R169). -/
def execTableInvalidate (mask : BitVec 16) (s : State) : Host.Outcome State Fault Refusal :=
  done (s.invalidate mask.toNat)

/-- INVALIDATION_WALK_DONE (R169): the CK_MGMT cycle after the walk's visit of set 32,767 begins. -/
def execInvalidationWalkDone (s : State) : Host.Outcome State Fault Refusal :=
  let s1 := (if s.cut.walkTables = 0 then s else s.advanceTo (s.cut.walkFrom + 32768)).walkAdvance
  if s1.cut.walkTables ≠ 0 && decide (32768 ≤ s1.cut.walkNext) then
    done ((({ s1 with cut := { s1.cut with walkTables := 0, walkNext := 0 } }).sf F.CUT_STATUS_INVAL_BUSY 0).raise
      F.CUT_EVENTS_INVAL_DONE)
  else done s1

/-! ### Commit -/

/-- Whether an UPDATE admitted earlier shares an entity of the same table with this one (R127). -/
def State.updBlocked (s : State) (key : Nat) (u : UpdCtx) : Bool :=
  s.hly.upds.any fun x => decide (x.1 < key) && (!x.2.known ||
    (decide (x.2.table = u.table) && x.2.rows.any u.rows.contains))

/-- One entry's values merged into a row: VALUE[j] for every MASK bit j that is 1 (R170 step 4). -/
def mergeRow (data : List Byte) (e : UpdEntry) : List Byte :=
  (List.range 32).foldl (fun d j =>
    if e.mask.testBit j then patch d (4 * j) (leBytes 4 (e.values.getD j 0).toNat) else d) data

/-- Writes a line back to its row (R170 step 5), a marked half-line with POISON (Table 15.4). -/
def State.writeRow (s : State) (key : Nat) (l : CacheLine) : State :=
  s.dmaWrite (.updateEngine 0 key) (s.rowAddr l.table l.entity + 2 ^ 63) l.data false
    ((List.range 2).filterMap fun h => if l.poison.testBit h then some (64 * h) else none)

/-- Merges an UPDATE's entries, in ascending order, into its line of one entity, and starts the write-back; the UPDATE's
pin becomes the write-back's. -/
def State.commitRow (s : State) (u : UpdCtx) (e : Nat) : State :=
  match s.lineOf u.table e with
  | none => s
  | some (ln, l) =>
    let d := (u.entries.filter fun x => decide (x.entity = e)).foldl mergeRow l.data
    let l' := { l with data := d, wb := l.wb + 1 }
    (((s.setLine ln l').cutCnt 20).writeRow ln l')

/-- WRITEBACK_ACK (R170): a write-back is acknowledged and the line unpinned, or its error sets WRITEBACK_ERR and the
line stays pinned. -/
def execWritebackAck (table : Fin 16) (entity : W32) (ok : Bool) (s : State) : Host.Outcome State Fault Refusal :=
  match s.lineOf table entity.toNat with
  | none => done s
  | some (ln, l) =>
    let (r, s) := s.takeEnded (.updateEngine 0 ln) (if ok then some [] else none)
    if l.wb = 0 then done s
    else if r.isSome then
      done ((((s.setLine ln { l with wb := l.wb - 1, pins := l.pins - 1, wbFailed := none }).cutCnt 21).pinAll).syncCut)
    else done ((s.setLine ln { l with wbFailed := some s.now }).raise F.CUT_EVENTS_WRITEBACK_ERR)

/-- WRITEBACK_RETRY (R170): 1,024 CK_TICK cycles after its error a write-back is issued again. -/
def execWritebackRetry (table : Fin 16) (entity : W32) (s : State) : Host.Outcome State Fault Refusal :=
  match s.lineOf table entity.toNat with
  | none => done s
  | some (ln, l) =>
    match l.wbFailed with
    | some c =>
      let s1 := s.advanceTo (c + 32 * 1024)
      done ((s1.setLine ln { l with wbFailed := none }).writeRow ln l)
    | none => done s

/-! ### Grid offload -/

/-- OFFLOAD_INPUT_SLOT (R186): the request at the head of the bridge ingress queue is sent at an input slot, not before
it has entered the queue; `die` holds the plan's input tile; `late` says that it missed the first input slot that began
after it reached the bridge. -/
def execOffloadInputSlot (die : Fin 4) (late : Bool) (s : State) : Host.Outcome State Fault Refusal :=
  match s.cut.bridgeQ with
  | [] => done s
  | key :: rest =>
    match tfind key s.cut.reqs with
    | none => done { s with cut := { s.cut with bridgeQ := rest } }
    | some c =>
      let s0 := (s.advanceTo c.readyAt).flushBridge
      let s1 := { s0 with cut := { s0.cut with bridgeQ := s0.cut.bridgeQ.tail } }
      done (((s1.setReq key { c with stage := .offload, startAt := s0.now, missedSlot := late }).emit
        (.offload die key)).syncCut)

/-- OFFLOAD_OUTPUT (R186): a neural plan's outputs return to the reply builder; `poison` when they carry it, `becalms`
how many becalms fell between input slot and outputs. Assumption log 48 (DEDUCED). -/
def execOffloadOutput (id : W64) (outs : List W32) (poison : Bool) (becalms : Nat) (s : State) :
    Host.Outcome State Fault Refusal :=
  match s.reqOf id.toNat with
  | none => done s
  | some (key, c) =>
    if c.stage ≠ .offload then done s else
    match c.checks with
    | .dropped _ => done (s.delReq key)
    | _ =>
      let n := (s.modelBuf c.slot c.buf).nOut
      done (s.markReady key { c with
        outputs := if poison then List.replicate n qnan else outs.take n, poisoned := poison,
        becalms := becalms } (s.now + 14))

end Sys2Proof.Machine
end

