-- ==== Sys2Proof/Machine/Launch.lean ====
section
/-! DEFINITION. The transmit side of a port and of a reply: the arbiter of R93 with preemption (R57, R58), the launch of
a reply (R173 to R177), its close (R178 to R182), and what a frame's end completes and counts (R69, R94). -/

namespace Sys2Proof.Machine

/-! ### Times and lengths of a reply -/

/-- h of R174: the reply bytes before HOLD_PAD. -/
def State.replyH (s : State) (c : ReqCtx) : Nat := (s.answerHead c.port c.car 0).length + 36 + 4 * c.outputs.length

/-- `close` of R174: the earliest crossing of the trailer's first byte. -/
def State.replyClose (s : State) (c : ReqCtx) : Nat :=
  let fl := max 64 (c.car.head.length + 36 + c.bodyLen + 4)
  c.first + s.crossAfter c.port (fl - 1) + 4

/-- pad(l) of R174. -/
def State.replyPad (s : State) (c : ReqCtx) (l : Nat) : Nat :=
  cdiv ((s.replyClose c - l) * 2000) (s.rho2000 c.port) - s.replyH c

/-- cap of R174. -/
def State.replyCap (s : State) (c : ReqCtx) : Nat := min c.padCap (s.maxFrame c.port - s.replyH c - 24)

/-- First cycle at which pad(l) is at most `k`. -/
def State.padAtMost (s : State) (c : ReqCtx) (k : Nat) : Nat := s.replyClose c - s.crossAfter c.port (s.replyH c + k)

/-- The first cycle in which a ready reply may launch on a free port with no pause (R176, R177), once that is known. -/
def State.launchFrom (s : State) (c : ReqCtx) : Option Nat :=
  if c.preemptable then
    match c.checks with
    | .passed f => some (max c.replyAt (f + 1))
    | _ => none
  else if c.aligned then some (max c.replyAt (s.padAtMost c 0))
  else some (max c.replyAt (s.padAtMost c (s.replyCap c)))

/-- The last cycle of a pause that holds, or last held, frames of a priority on a port (R60). -/
def State.pauseLast (s : State) (p q : Nat) : Nat :=
  let e := s.ethPort p
  match s.fcMode p with
  | 1 => e.pauseEnd
  | 2 => e.pfcEndOf q
  | _ => 0

/-- The cycle from which a frame that could start from cycle `f` on is a candidate: after the pause that holds it. -/
def State.candFrom (s : State) (p q f : Nat) : Nat :=
  let e := s.pauseLast p q
  if e ≠ 0 && decide (f ≤ e) then max f (e + 1) else f

/-! ### Waits and holds of replies (R59, R64) -/

/-- The ready replies of a port, with the first cycle each may launch in. -/
def State.readyReplies (s : State) (p : Nat) : List (Nat × ReqCtx × Nat) :=
  s.cut.reqs.filterMap fun e =>
    if e.2.port = p && e.2.stage == .ready then (s.launchFrom e.2).map fun f => (e.1, e.2, f) else none

/-- Counts a ready reply held by a pause, once (R64). Assumption log 30 (DEDUCED). -/
def State.noteHeld (s : State) (key : Nat) (c : ReqCtx) (f : Nat) : State :=
  if !c.held && decide (f ≤ s.now) && decide (s.candFrom c.port c.car.prio f ≠ f) then
    (s.setReq key { c with held := true }).ethCnt c.port 48
  else s

/-- R59: the wait of a reply behind a frame that the promise covers. -/
def State.coveredWait (s : State) (p : Nat) (express : Bool) : Bool :=
  decide (s.speedMul p = 1) && s.preemptActive p && decide (bits (s.ethPort p).preemptEff 2 2 = 0) && !express

/-- The same for an echo of a REPLY that waits at its port; the marks it carries, and the state with it counted.
Assumption log 30 (DEDUCED). -/
def State.noteEcho (s : State) (p : Nat) (express : Bool) (f : TxFrame) : TxFrame × State :=
  if !f.isReply then (f, s) else
  let from_ := s.candFrom p (f.prio.getD 0) f.since
  let h := !f.held && decide (f.since ≤ s.now) && decide (from_ ≠ f.since)
  let w := !f.waited && decide (from_ < s.now) && !s.coveredWait p express
  let s1 := if h then s.ethCnt p 48 else s
  ({ f with held := f.held || h, waited := f.waited || w }, if w then s1.ethCnt p 49 else s1)

/-- Counts every ready reply of a port that has waited behind a frame outside the cover of R59, and every one held by a
pause; `key` is left out of the waits. Assumption log 30 (DEDUCED). -/
def State.noteWaits (s : State) (p : Nat) (express : Bool) (but : Option Nat) : State :=
  let echoes := (s.ethPort p).waiting.foldl (fun (acc : List TxFrame × State) f =>
    let (g, s') := acc.2.noteEcho p express f
    (acc.1 ++ [g], s')) ([], s)
  let s0 := echoes.2.modEth p fun e => { e with waiting := echoes.1 }
  (s0.readyReplies p).foldl (fun s r =>
    let s1 := s.noteHeld r.1 r.2.1 r.2.2
    let c := (tfind r.1 s1.cut.reqs).getD r.2.1
    if !c.waited && decide (s.candFrom p c.car.prio r.2.2 ≤ s.now) && !s.coveredWait p express && but ≠ some r.1 then
      (s1.setReq r.1 { c with waited := true }).ethCnt p 49
    else s1) s0

/-! ### The arbiter -/

/-- A candidate of R93 and its rank: lower wins, compared element by element. -/
structure Cand where
  frame : TxFrame
  rank : List Nat
  deriving DecidableEq, Repr

/-- Lexicographic order of ranks. -/
def rankLt : List Nat → List Nat → Bool
  | [], _ => false
  | _ :: _, [] => true
  | a :: s, b :: t => decide (a < b) || (decide (a = b) && rankLt s t)

/-- The tests 1 to 6 of R93 as a rank. Assumption log 31 (DEDUCED). -/
def candRank (gen express : Bool) (prio : Nat) (builder : Bool) (since order : Nat) : List Nat :=
  [b2n (!gen), b2n (!express), 7 - prio % 8, b2n (!builder), since, order]

/-- Whether ring frames of a priority are express (R58). Assumption log 31 (DEDUCED). -/
def State.ringExpress (s : State) (p q : Nat) : Bool := (s.ethPort p).preemptEff.testBit (8 + q)

/-- The candidates of a port in this cycle (R93). Assumption log 31 (DEDUCED). -/
def State.candidates (s : State) (p : Nat) : List Cand :=
  let e := s.ethPort p
  let gen := match e.genWait with
    | some f => [⟨f, candRank true true 7 true 0 0⟩]
    | none => []
  let acks := e.waiting.filterMap fun f =>
    let q := f.prio.getD 0
    let from_ := s.candFrom p q f.since
    if from_ ≤ s.now then some ⟨f, candRank false true q true from_ f.order⟩ else none
  let reps := (s.readyReplies p).filterMap fun r =>
    let q := r.2.1.car.prio
    let from_ := s.candFrom p q r.2.2
    if from_ ≤ s.now then
      some ⟨{ kind := .reply r.1, bytes := [], prio := some q, since := from_, order := r.2.1.order, isReply := true },
        candRank false true q true from_ r.2.1.order⟩
    else none
  let rings := e.staging.filterMap fun f =>
    if f.ready && !f.started && !s.halted p (some f.prio) then
      some ⟨{ kind := .ring f.ring, bytes := f.bytes, prio := some f.prio, express := s.ringExpress p f.prio,
              since := f.since },
        candRank false (s.ringExpress p f.prio) f.prio false ((f.ring + 65535 - e.lastRing) % 65536) 0⟩
    else none
  gen ++ acks ++ reps ++ rings

/-- The candidate the arbiter takes. -/
def pickCand : List Cand → Option Cand
  | [] => none
  | c :: t =>
    match pickCand t with
    | none => some c
    | some d => if rankLt d.rank c.rank then some d else some c

/-- The frame that may start on a port now: at a frame boundary any candidate; beside a suspended frame, or by
preempting one, an express candidate (R57, R58). -/
def State.choice (s : State) (p : Nat) : Option TxFrame :=
  let e := s.ethPort p
  let cs := s.candidates p
  let ex := cs.filter fun c => c.frame.express
  let c : Option Cand := match e.inProg, e.susp with
    | none, none => pickCand cs
    | none, some _ => pickCand ex
    | some f, none => if s.preemptActive p && !f.express then pickCand ex else none
    | some _, some _ => none
  c.map fun x => x.frame

/-! ### Launch -/

/-- CUT counter of the first failing condition of Table 6.2, or R187's (none when only conditions 7 and 8 fail).
Assumption log 44 (DEDUCED). -/
def State.promiseCounter (s : State) (c : ReqCtx) : Option Nat :=
  let b := s.modelBuf c.slot c.buf
  let late := c.held || c.waited
  if b.neural then
    if c.aligned then some 13
    else if c.preemptable then some 14
    else if c.missed then some 15
    else if c.missedSlot then some 16
    else if c.capDelayed then some 17
    else if 1 < c.becalms then some 18
    else if late then none
    else some 11
  else if b.passes ≠ 1 || decide (256 < b.trees) || decide (16 < b.depth) then some 12
  else if c.aligned then some 13
  else if c.preemptable then some 14
  else if c.missed then some 15
  else if c.readyAt + 26 < c.startAt then some 16
  else if c.capDelayed then some 17
  else if late then none
  else some 10

/-- Bucket of a LATENCY_CYC (Table 6.23). -/
def latBucket (n : Nat) : Nat :=
  if n ≤ 63 then 0 else if n ≤ 70 then 1 else if n ≤ 80 then 2 else if n ≤ 96 then 3 else if n ≤ 192 then 4
  else if n ≤ 960 then 5 else if n ≤ 4095 then 6 else 7

/-- SAMPLER_LATCH (R190). -/
def State.samplerLatch (s : State) (p : Nat) (c : ReqCtx) (lat : Nat) : State :=
  if !s.flag (F.SAMPLE_CTRL_ARM p) then s else
  let rx := s.rxStamp p (s.now - c.first)
  let tx := s.txStamp p
  ((((((s.wrN (R.SAMPLE_ID p) c.id).wrN (R.SAMPLE_RX_NS p) rx.ns).wrN (R.SAMPLE_TX_NS p) tx.ns).wrN (R.SAMPLE_FRAC p)
    (tx.frac16 * 65536 + rx.frac16)).wrN (R.SAMPLE_LAT p) lat).wrN (R.SAMPLE_CTRL p) 2)

/-- A ready reply's first byte crosses now (R175, R176): PAD_LEN and LATENCY_CYC are fixed and counted.
Assumption log 44 (DEDUCED), 46 (DEDUCED). -/
def State.launch (s : State) (key : Nat) (c : ReqCtx) : State :=
  let p := c.port
  let pad := if c.preemptable then 0 else s.replyPad c s.now
  let lat := min 0xFFFF (s.now - c.needed)
  let capd := !c.preemptable && !c.aligned && decide (c.replyAt < s.padAtMost c (s.replyCap c))
  let c1 := { c with stage := .launched, launchAt := s.now, padLen := pad, latency := lat, capDelayed := capd }
  let s1 := (((s.setReq key c1).cutCnt 7).cutCnt 19 pad).cnt (R.CUT_LATENCY_HIST (latBucket lat))
  let s2 := if c.shed then s1 else
    match s1.promiseCounter c1 with
    | some i => s1.cutCnt i
    | none => s1
  s2.samplerLatch p c1 lat

/-- A chosen frame's first byte crosses: it takes the port, suspending the preemptable frame it cuts into (R57). -/
def State.startFrame (s : State) (p : Nat) (f : TxFrame) : State :=
  let f := { f with stamp := s.txStamp p, startAt := s.now }
  let key := match f.kind with
    | .reply k => some k
    | _ => none
  let cutIn := match (s.ethPort p).inProg with
    | some g => decide (f.since < s.now) && !s.coveredWait p g.express
    | none => false
  let s0 := s.noteWaits p f.express (if cutIn then none else key)
  let s1 := s0.modEth p fun e =>
    { e with
      inProg := some f
      susp := match e.inProg with
        | some g => some { g with frags := g.frags + 1 }
        | none => e.susp
      waiting := e.waiting.eraseP fun g => decide (g.kind = f.kind) && decide (g.order = f.order) && decide (g.bytes = f.bytes)
      genWait := if f.kind = .genPause ∨ f.kind = .genPfc then none else e.genWait
      lastGen := if f.kind = .genPause ∨ f.kind = .genPfc then s.now else e.lastGen
      lastRing := match f.kind with
        | .ring n => n
        | _ => e.lastRing
      staging := match f.kind with
        | .ring n => e.staging.map fun g => if g.ring = n then { g with started := true } else g
        | _ => e.staging }
  match key with
  | none => s1
  | some k =>
    match tfind k s1.cut.reqs with
    | some c => s1.launch k c
    | none => s1

/-- Resumes the suspended frame of a port whose express frames are done (R57). -/
def State.resumeSusp (s : State) (p : Nat) : State :=
  s.modEth p fun e => match e.inProg, e.susp with
    | none, some g => { e with inProg := some g, susp := none }
    | _, _ => e

/-- TX_FRAME_START (R93): the arbiter's choice starts; with no candidate a suspended frame goes on, or the port idles.
`pathFail` says that a ring frame fails its path code in staging: it completes with FETCH_ERROR, unsent (R417). -/
def execTxFrameStart (p : Fin 16) (pathFail : Bool) (s : State) : Host.Outcome State Fault Refusal :=
  let e := s.ethPort p
  let s0 := if e.inProg.isNone && e.susp.isNone then s.preemptBoundary p else s
  if !s0.linkUp p then done s0 else
  match s0.choice p with
  | none => done (s0.resumeSusp p)
  | some f =>
    match f.kind with
    | .ring n =>
      if pathFail then
        done ((s0.pathErrs [true]).endStaged p n dsFetchError)
      else done (s0.startFrame p f)
    | _ => done (s0.startFrame p f)

/-- A reply that is not sent because its port's link is down (R46, Table 4.13): its entry is freed, its record committed
as NOT_SENT once its checks have passed. -/
def State.abandonReply (s : State) (key : Nat) (c : ReqCtx) : State :=
  let s1 := (s.ethCnt c.port 51).ledgerFree c.id
  let decide_ (commit : Bool) : State :=
    let s2 := s1.delReq key
    match c.ring with
    | some n => s2.recordDecide n key commit (if commit then 4 else 0) 0
    | none => s2
  match c.checks with
  | .open_ => s1.setReq key { c with stage := .gone }
  | .passed _ => decide_ true
  | .dropped _ => decide_ false

/-- A ready reply at its port (R172): it starts if it is the arbiter's choice, and otherwise its wait is noted; a port
whose link is down abandons it. Assumption log 46 (DEDUCED). -/
def State.launchReply (s : State) (key : Nat) (c : ReqCtx) : State :=
  let s := s.advanceTo (match s.launchFrom c with
    | some f => s.candFrom c.port c.car.prio f
    | none => c.replyAt)
  let e := s.ethPort c.port
  let s0 := if e.inProg.isNone && e.susp.isNone then s.preemptBoundary c.port else s
  if !s0.linkUp c.port then s0.abandonReply key c else
  match s0.choice c.port with
  | some f => if f.kind = .reply key then s0.startFrame c.port f else s0.noteWaits c.port f.express none
  | none =>
    match (s0.ethPort c.port).inProg with
    | some f => s0.noteWaits c.port f.express none
    | none =>
      match s0.launchFrom c with
      | some f => s0.noteHeld key c f
      | none => s0

/-- REPLY_LAUNCH (R176): a ready reply launches when its mode, the pad cap, pauses and the port allow. -/
def execReplyLaunch (id : W64) (s : State) : Host.Outcome State Fault Refusal :=
  match s.reqOf id.toNat with
  | none => done s
  | some (key, c) => if c.stage ≠ .ready then done s else done (s.launchReply key c)

/-! ### Close -/

/-- The cycle in which the trailer of a launched reply is due (R178). -/
def State.trailerDue (s : State) (c : ReqCtx) : Nat := c.launchAt + s.crossAfter c.port (s.replyH c + c.padLen)

/-- Pad bytes sent when the request is dropped in cycle F: up to the last that crosses in F + 1 (R178). -/
def State.padSent (s : State) (c : ReqCtx) (f : Nat) : Nat :=
  let n := cdiv ((f + 2 - c.launchAt) * 2000) (s.rho2000 c.port)
  min c.padLen (n - s.replyH c)

/-- PASS of a reply (Table 4.5). -/
def State.replyPass (s : State) (c : ReqCtx) : Nat :=
  let b := s.modelBuf c.slot c.buf
  if c.shed || b.neural then 0 else b.passes

/-- How a launched reply closes: its STATUS and the pad bytes sent (R178, R179, R181, R182). `fail` is a path-code failure
after its first byte (R417). -/
def State.replyEnd (s : State) (c : ReqCtx) (fail : Bool) : Nat × Nat :=
  if fail then (2, c.padLen) else
  match c.checks with
  | .passed f => if f ≤ s.trailerDue c then (if c.shed then 1 else if c.poisoned then 3 else 0, c.padLen) else (2, c.padLen)
  | .dropped f => (2, if f ≤ s.trailerDue c then s.padSent c f else c.padLen)
  | .open_ => (2, c.padLen)

/-- The cycle in which a launched reply's last FCS byte crosses. -/
def State.replyLast (s : State) (c : ReqCtx) (pad : Nat) : Nat :=
  c.launchAt + s.crossAfter c.port (max 64 (s.replyH c + pad + 24) - 1)

/-- A frame as it leaves: padded to 60 bytes, its FCS (R56), or the one's complement of it when stomped (R178).
Assumption log 10 (PRESUMED). -/
def State.sendFrame (s : State) (p : Nat) (b : List Byte) (stomp : Bool) : State :=
  let f := b ++ List.replicate (60 - b.length) 0
  let c := crc32 f
  s.emit (.frame p f (if stomp then 0xFFFFFFFF - c else c))

/-- Transmit counters of a frame that leaves (R69): a stomped one only in TX_STOMPED. Assumption log 29 (DEDUCED). -/
def State.countSent (s : State) (p : Nat) (b : List Byte) (stomp isReply : Bool) (frags : Nat) : State :=
  let s0 := if frags = 0 then s else s.ethCnt p 34 (frags + 1)
  if stomp then s0.ethCnt p 50 else
  let n := txLen b.length
  let d := beAt b 0 6
  let s1 := ((s0.ethCnt p (10 + sizeBucket n)).ethCnt p 44 n).ethCnt p (if d = bcast then 30 else if isGroup d then 29 else 28)
  if isReply then s1.ethCnt p 33 else s1

/-- Leaves the port free for its next frame. -/
def State.freePort (s : State) (p : Nat) : State := s.modEth p fun e => { e with inProg := none }

/-- The message of a launched reply as it is sent: lengths as fixed at launch, `sent` pad bytes (R178).
Assumption log 43 (DEDUCED). -/
def State.replyFrame (s : State) (c : ReqCtx) (status sent : Nat) : List Byte :=
  let body := replyBody c.outputs c.padLen status (s.replyPass c) c.latency c.epoch
  let full := answerHdr c.car hkReply body.length false ++ body
  let cutAt := 32 + 4 + 4 * c.outputs.length
  let m := full.take (cutAt + sent) ++ full.drop (cutAt + c.padLen)
  s.answerHead c.port c.car (36 + body.length) ++ m ++ beBytes 4 (crc32c m)

/-- A launched reply closes (R178 to R182): the frame leaves, the ledger entry becomes ECHO or is freed, its record is
decided, and the close is counted. Assumption log 43 (DEDUCED). -/
def State.closeReply (s : State) (key : Nat) (c : ReqCtx) (fail : Bool) : State :=
  let p := c.port
  let (status, pad) := s.replyEnd c fail
  let void := decide (status = 2)
  let b := s.replyFrame c status pad
  let s1 := (((s.sendFrame p b void).countSent p b void true 0).noteWaits p true none).freePort p
  if void then
    let s2 := (s1.cutCnt 8).ledgerFree c.id
    match c.checks with
    | .open_ => s2.setReq key { c with stage := .gone, cutShort := true }
    | _ =>
      let s3 := s2.delReq key
      match c.ring with
      | some n => s3.recordDecide n key false 0 0
      | none => s3
  else
    let s2 := s1.ledgerEcho c.id
      { kind := hkReply, body := replyBody c.outputs 0 status (s.replyPass c) 0 c.epoch }
    let s3 := if c.shed then s2.addCtr 48 (R.CUT_SHED_ANSWERED c.slot) 1 else s2
    let s4 := if status = 3 then (s3.cutCnt 9).raise F.CUT_EVENTS_REPLY_POISONED else s3
    let s5 := s4.delReq key
    match c.ring with
    | some n => s5.recordDecide n key true status (s.replyPass c)
    | none => s5

/-- REPLY_CLOSE (R178): the reply being sent closes in the cycle its last FCS byte crosses. -/
def execReplyClose (id : W64) (s : State) : Host.Outcome State Fault Refusal :=
  match s.reqOf id.toNat with
  | none => done s
  | some (key, c) =>
    if c.stage ≠ .launched then done s
    else done ((s.advanceTo (s.replyLast c (s.replyEnd c false).2)).closeReply key c false)

/-- A generated PAUSE or PFC frame ends, counted under native counter `i` when its FCS is good (R69). -/
def State.endGenerated (s : State) (p : Nat) (f : TxFrame) (i : Nat) (stomp : Bool) : State :=
  let s1 := (((s.sendFrame p f.bytes stomp).countSent p f.bytes stomp false 0).noteWaits p true none).freePort p
  if stomp then s1 else s1.ethCnt p i

/-- The cycle in which the last FCS byte of a frame that is sent whole crosses; a reply's is that of R178. -/
def State.frameLast (s : State) (p : Nat) (f : TxFrame) : Nat :=
  match f.kind with
  | .reply _ => s.now
  | _ => f.startAt + s.crossAfter p (max 64 (f.bytes.length + 4) - 1)

/-- TX_FRAME_END (R94): the frame in progress on a port ends; its descriptors complete or its answer is recorded.
`pathFail` says that a byte failed its path code after the first one had crossed (R417). -/
def execTxFrameEnd (p : Fin 16) (pathFail : Bool) (s : State) : Host.Outcome State Fault Refusal :=
  match (s.ethPort p).inProg with
  | none => done s
  | some f =>
    let s := if f.frags = 0 ∧ !pathFail then s.advanceTo (s.frameLast p f) else s
    let s0 := if pathFail then s.pathErrs [true] else s
    match f.kind with
    | .reply key =>
      match tfind key s0.cut.reqs with
      | some c =>
        if pathFail then done (s0.closeReply key c true)
        else done ((s0.advanceTo (s0.replyLast c (s0.replyEnd c false).2)).closeReply key c false)
      | none => done (s0.freePort p)
    | .ring n =>
      let s1 := (((s0.sendFrame p f.bytes pathFail).countSent p f.bytes pathFail false f.frags).noteWaits p f.express none
        ).freePort p
      let want := match (s0.ethPort p).stagedOf n with
        | some g => g.stampReq
        | none => false
      done (s1.endStaged p n (if pathFail then dsFetchError else dsOk) (if want && !pathFail then some f.stamp else none))
    | .ack id =>
      let s1 := (((s0.sendFrame p f.bytes pathFail).countSent p f.bytes pathFail f.isReply 0).noteWaits p true none
        ).freePort p
      if f.answerKind = 0 then done s1 else done (s1.ledgerEcho id { kind := f.answerKind, body := f.answerBody })
    | .genPause => done (s0.endGenerated p f 31 pathFail)
    | .genPfc => done (s0.endGenerated p f 32 pathFail)

end Sys2Proof.Machine
end

