-- ==== Sys2Proof/Machine/Log.lean ====
section
/-! DEFINITION. The update log at the buddy (R394 to R396): records begun in admission order, their writes, the retry of
a failed write, cancellation; and how an UPDATE ends (R126 to R128). -/

namespace Sys2Proof.Machine

/-- REC_COUNT (Table 14.21). -/
def State.recCnt (s : State) (i : Nat) (k : Nat := 1) : State := s.addCtr 48 (R.REC_COUNT i) k

/-- LOG_SIZE in 64-byte units. The buddy's LOG region is taken to lie as this module's own LOG register says. -/
def State.logSize (s : State) : Nat := s.gf F.REC_LOG_SIZE_MIB * 16384

/-- Global address of log unit `u` at the buddy. Assumption log 52 (DESIGN CHOICE). -/
def State.logAddr (s : State) (u : Nat) : Nat :=
  gAddr (s.gf F.REC_BUDDY_BUDDY) (s.gf F.REC_LOG_BASE * 0x100000 + 64 * (if s.logSize = 0 then 0 else u % s.logSize))

/-- 64-byte units of a record of `n` entries (R394). -/
def recUnits (n : Nat) : Nat := cdiv (32 + 136 * n) 64

/-- The header of a log record (Table 14.2); `flags` is bit 0 VALID, bit 1 CANCEL. -/
def LogRec.header (r : LogRec) (flags : Nat) : List Byte :=
  leBytes 8 r.pos ++ leBytes 8 r.id ++ leBytes 1 r.table ++ leBytes 1 r.entries.length ++ leBytes 1 flags ++
    List.replicate 13 0

/-- The entries of a log record. -/
def LogRec.body (r : LogRec) : List Byte :=
  r.entries.flatMap fun e => leBytes 4 e.entity ++ leBytes 4 e.mask ++ e.values.flatMap fun v => leBytes 4 v.toNat

/-- One write of the log to the buddy: a packet, or a write of the module's own memory. `what` is 1 an entry write, 2 a
header, 3 a header with CANCEL; headers are released (R394, R396). -/
def State.logIssue (s : State) (what key epoch addr : Nat) (d : List Byte) : State :=
  if s.isOwn (gModule addr) then
    let (st, s1) := s.localWrite .bowsprit addr d 0
    s1.endFor (.updateEngine what key) st [] 0 addr d
  else s.issue (.updateEngine what key) 0 opWrite addr d.length 0 (if what = 1 then 0 else 2) d (some epoch)

/-- The WRITEs of a record's entries: pieces that cross neither a 256-byte boundary nor the end of the ring. -/
def State.logPieces (s : State) (r : LogRec) : List (Nat × List Byte) :=
  let full := List.replicate 32 0 ++ r.body
  let units := recUnits r.entries.length
  let first := if s.logSize = 0 then units else min units (s.logSize - r.pos % s.logSize)
  let seg (u0 n : Nat) (d : List Byte) : List (Nat × List Byte) :=
    let a := s.logAddr (r.pos + u0)
    (pieces (n + 1) a n).map fun x => (x.1, slice d (x.1 - a) x.2)
  let a := full.take (64 * first)
  let b := full.drop (64 * first)
  let head := seg 0 a.length a
  (head.filterMap fun x =>
    let base := s.logAddr r.pos
    if x.1 < base + 32 then
      (if 32 < x.1 - base + x.2.length then some (base + 32, x.2.drop (32 - (x.1 - base))) else none)
    else some x) ++ (if b.isEmpty then [] else seg first b.length b)

/-- Changes the record of an UPDATE. -/
def State.modLog (s : State) (key : Nat) (f : LogRec → LogRec) : State :=
  { s with recov := { s.recov with logs := s.recov.logs.map fun r => if r.key = key then f r else r } }

/-- Takes up one ended write of the log (R394, R396). -/
def State.logEnded (s : State) (e : Ended) : State :=
  match e.issuer with
  | .updateEngine 1 key =>
    s.modLog key fun r =>
      if e.status = stOk then { r with out := r.out - 1 }
      else { r with out := r.out - 1, failed := r.failed ++ [(e.addr, e.sent, s.now)] }
  | .updateEngine 2 key =>
    s.modLog key fun r => if e.status = stOk then { r with hdr := 2 } else { r with hdr := 3, hdrFailedAt := s.now }
  | .updateEngine 3 key =>
    if e.status = stOk then
      { s with recov := { s.recov with logs := s.recov.logs.filter fun r => decide (r.key ≠ key) } }
    else s.modLog key fun r => { r with cxl := 3, hdrFailedAt := s.now }
  | _ => s

/-- Whether an ended operation is a write of the log. -/
def Ended.isLog (e : Ended) : Bool :=
  match e.issuer with
  | .updateEngine 1 _ => true
  | .updateEngine 2 _ => true
  | .updateEngine 3 _ => true
  | _ => false

/-- Takes up every ended write of the log. -/
def State.logTake (s : State) : State :=
  let es := s.rig.ended.filter Ended.isLog
  es.foldl (fun s e => s.logEnded e) { s with rig := { s.rig with ended := s.rig.ended.filter fun e => !e.isLog } }

/-- Whether every write of a record has completed with OK. -/
def LogRec.clear (r : LogRec) : Bool := !r.cancel && decide (r.out = 0) && r.failed.isEmpty && decide (r.hdr = 2)

/-- Issues the header writes that may go: of each record whose entry writes and whose every earlier write completed with
OK, and the CANCEL rewrite of a freed record none of whose writes is outstanding. -/
def State.logHeaders (s : State) : State :=
  (s.recov.logs.foldl (fun (acc : State × Bool) r =>
    let (s, ok) := acc
    if r.cancel then
      if r.cxl = 0 && decide (r.out = 0) && decide (r.hdr ≠ 1) then
        ((s.modLog r.key fun x => { x with cxl := 1 }).logIssue 3 r.key r.epoch (s.logAddr r.pos) (r.header 3), false)
      else (s, false)
    else if ok && r.hdr = 0 && decide (r.out = 0) && r.failed.isEmpty then
      ((s.modLog r.key fun x => { x with hdr := 1 }).logIssue 2 r.key r.epoch (s.logAddr r.pos) (r.header 1), false)
    else (s, ok && r.clear)) (s, true)).1

/-- Takes up ended writes and issues what may follow, twice, so that a write of the module's own memory is taken up. -/
def State.logAdvance (s : State) : State := (((s.logTake).logHeaders).logTake).logHeaders

/-- Begins the log record of an UPDATE (R394): its entry writes go out and HEAD moves past it.
Assumption log 51 (DEDUCED). -/
def State.beginLog (s : State) (key : Nat) (u : UpdCtx) : State :=
  let head := s.gf F.REC_LOG_STATE_HEAD
  let r : LogRec := { key := key, id := u.id, table := u.table, entries := u.entries, pos := head, epoch := u.epoch }
  let ws := s.logPieces r
  let s1 := { s with recov := { s.recov with logs := s.recov.logs ++ [{ r with out := ws.length }] } }
  let s2 := ((s1.setUpd key { u with begun := true }).sf F.REC_LOG_STATE_HEAD (head + recUnits u.entries.length)).recCnt 6
  ws.foldl (fun s w => s.logIssue 1 key u.epoch w.1 w.2) s2

/-- Begins records in admission order (R394, R395): an UPDATE whose checks are not decided, or that finds no room, holds
back every later one. -/
def State.beginLogs (s : State) : State :=
  (s.hly.upds.foldl (fun (acc : State × Bool) x =>
    let (s, go) := acc
    let u := x.2
    if !go || !u.known then (s, false)
    else if u.begun then (s, true)
    else
      let used := s.gf F.REC_LOG_STATE_HEAD + 2 ^ 32 - s.gf F.REC_LOG_STATE_CUT
      if s.logSize < used % 2 ^ 32 + recUnits u.entries.length then
        (if u.logWaited then s
         else (((s.setUpd x.1 { u with logWaited := true }).recCnt 7).raise F.REC_EVENTS_LOG_FULL), false)
      else (s.beginLog x.1 u, true)) (s, true)).1.logAdvance

/-- An UPDATE leaves uncommitted (R123, R128, R396): its pins are dropped, and a begun record is cancelled. -/
def State.updFree (s : State) (key : Nat) (u : UpdCtx) : State :=
  let s1 := u.pinned.foldl (fun s e => s.unpin u.table e) s
  let s2 := { s1 with
    hly := { s1.hly with upds := tdel key s1.hly.upds }
    cut := { s1.cut with miss := s1.cut.miss.map fun (x : Nat × MissSlot) =>
      (x.1, { x.2 with upds := x.2.upds.filter fun k => decide (k ≠ key) }) } }
  let s3 := if u.begun then s2.modLog key fun r => { r with cancel := true } else s2
  ((s3.beginLogs).pinAll).syncCut

/-- The entries of an UPDATE message (Table 4.6). -/
def updEntries (m : List Byte) : List UpdEntry :=
  (List.range (beAt m 33 1)).map fun e =>
    let o := 36 + 136 * e
    { entity := beAt m o 4, mask := beAt m (o + 4) 4,
      values := (List.range 32).map fun j => BitVec.ofNat 32 (beAt m (o + 8 + 4 * j) 4) }

/-- UPDATE_ACCEPTED (R126, R404): an admitted UPDATE passed both its checks. -/
def State.updAccept (s : State) (key : Nat) (u : UpdCtx) (m : List Byte) : State :=
  let t := beAt m 32 1 % 16
  let es := updEntries m
  if (s.gf F.REC_TABLE_HOLD_TABLES).testBit t then
    (((s.updFree key u).ledgerFree u.id).recCnt 9).raise F.REC_EVENTS_UPD_HELD
  else
    let bad := if !(s.flag (F.CUT_TABLE_BASE_VALID t) && s.flag (F.CUT_TABLE_BASE_WRITABLE t)) then 1
      else if es.any (fun e => decide (s.gf (F.CUT_TABLE_SIZE_ENTITIES t) ≤ e.entity)) then 2 else 0
    if bad ≠ 0 then
      ((s.updFree key u).hlyCnt 15).offerAnswer u.port u.id u.car u.order hkUpdateAck
        (beBytes 2 bad ++ beBytes 2 0 ++ beBytes 4 (u.epoch % 2 ^ 32)) false
    else
      ((((s.setUpd key { u with known := true, table := t, entries := es }).pinAll).beginLogs).syncCut)

/-- UPD_TIMEOUT (R123, R128): an UPDATE not committed in time is freed, unpins its lines and is counted. -/
def execUpdTimeout (id : W64) (s : State) : Host.Outcome State Fault Refusal :=
  match s.hly.upds.find? fun x => decide (x.2.id = id.toNat) with
  | none => done s
  | some (key, u) =>
    done (((((s.advanceTo u.limit).updFree key u).ledgerFree u.id).hlyCnt 13).raise F.HLY_EVENTS_UPD_TIMEOUT)

/-- LOG_RECORD_STORED (R394): the released header write of an UPDATE's record has completed with OK; the buddy has
stored it. -/
def execLogRecordStored (id : W64) (s : State) : Host.Outcome State Fault Refusal :=
  let s0 := s.logTake
  match s0.hly.upds.find? fun x => decide (x.2.id = id.toNat) with
  | none => done s0.logHeaders
  | some (key, u) =>
    match s0.recov.logs.find? fun r => decide (r.key = key) with
    | none => done s0
    | some r =>
      if r.hdr ≠ 1 && r.hdr ≠ 2 then done s0 else
      let s1 := s0.modLog key fun x => { x with hdr := 2 }
      let u' := if u.stored.isNone then { u with stored := some s.now } else u
      done (((s1.setUpd key u').logHeaders).logTake)

/-- LOG_WRITE_RETRY (R394): 75 CK_TICK cycles after a write of a record failed, the engine issues it again. -/
def execLogWriteRetry (id : W64) (s : State) : Host.Outcome State Fault Refusal :=
  let s0 := s.logTake
  match s0.recov.logs.find? fun r => decide (r.id = id.toNat) with
  | none => done s0
  | some r =>
    let fails := (r.failed.map fun x => x.2.2) ++ (if r.hdr = 3 ∨ r.cxl = 3 then [r.hdrFailedAt] else [])
    let s0 := match fails with
      | [] => s0
      | t :: l => s0.advanceTo (l.foldl min t + 32 * 75)
    let due (c : Nat) : Bool := decide (c + 32 * 75 ≤ s0.now)
    if r.cancel then
      if r.cxl = 3 && due r.hdrFailedAt then
        done (((s0.modLog r.key fun x => { x with cxl := 1 }).logIssue 3 r.key r.epoch (s0.logAddr r.pos) (r.header 3)).logTake)
      else done s0
    else
      let again := r.failed.filter fun x => due x.2.2
      let s1 := s0.modLog r.key fun x =>
        { x with failed := x.failed.filter fun y => !due y.2.2, out := x.out + again.length }
      let s2 := again.foldl (fun s w => s.logIssue 1 r.key r.epoch w.1 w.2.1) s1
      let s3 := if r.hdr = 3 && due r.hdrFailedAt then
          (s2.modLog r.key fun x => { x with hdr := 1 }).logIssue 2 r.key r.epoch (s2.logAddr r.pos) (r.header 1)
        else s2
      done s3.logAdvance

/-- UPDATE_COMMIT (R126, R127, R170): the cycle after the later of the buddy's report and the last pin, an UPDATE's
values become visible, its write-backs start and its UPDATE_ACK is offered. -/
def execUpdateCommit (id : W64) (s : State) : Host.Outcome State Fault Refusal :=
  match s.hly.upds.find? fun x => decide (x.2.id = id.toNat) with
  | none => done s
  | some (key, u) =>
    match u.stored, u.pinnedAt with
    | some a, some b =>
      if s.updBlocked key u then done s else
      let s := s.advanceTo (max a b + 1)
      let s1 := u.rows.foldl (fun s e => s.commitRow u e) s
      let s2 := { s1 with
        hly := { s1.hly with upds := tdel key s1.hly.upds }
        recov := { s1.recov with logs := s1.recov.logs.filter fun r => decide (r.key ≠ key) } }
      let body := beBytes 2 0 ++ beBytes 2 u.entries.length ++ beBytes 4 (u.epoch % 2 ^ 32)
      done ((((s2.hlyCnt 14).offerAnswer u.port u.id u.car u.order hkUpdateAck body false).pinAll).syncCut)
    | _, _ => done s

end Sys2Proof.Machine
end

