-- ==== Sys2Proof/Machine/FrameRx.lean ====
section
/-! DEFINITION. The receive side of a port: a frame's fate (R48 to R55), what an accepted or dropped frame does to the
rings, the ledger, the serving path and the records, the link of a port (R46), and the verification of CONTROLs'
queueing (R129, R131). -/

namespace Sys2Proof.Machine

/-- MODULE_STATE encodings (Table 1.16). -/
abbrev msBooting : Nat := 0
abbrev msInitialising : Nat := 1
abbrev msLinking : Nat := 2
abbrev msReady : Nat := 3
abbrev msLeaving : Nat := 4
abbrev msRetiring : Nat := 5
abbrev msFailed : Nat := 6

/-- MODULE_STATE.STATE. -/
def State.modState (s : State) : Nat := s.gf F.MODULE_STATE_STATE

/-- Whether READY has been reached: READY, LEAVING or RETIRING, or FAILED after READY. -/
def State.ready (s : State) : Bool := s.boot.readyAt.isSome

/-! ### A request's end before its reply -/

/-- A request is dropped in its fate cycle (R180): the ledger entry is freed, its record is void, and it leaves the
serving path; a launched reply closes VOID later. -/
def State.dropRequest (s : State) (key : Nat) (c : ReqCtx) : State :=
  let s := s.flushSamples.flushBridge
  let s0 := match s.launchFrom c with
    | some f => if c.stage = .ready then s.noteHeld key c f else s
    | none => s
  let void (s : State) : State := match c.ring with
    | some n => s.recordDecide n key false 0 0
    | none => s
  let c' := { (tfind key s0.cut.reqs).getD c with checks := .dropped s.now }
  match c.stage with
  | .launched => s0.setReq key c'
  | .running => (void (s0.setReq key { c' with ring := none })).ledgerFree c.id
  | .offload => (void (s0.setReq key { c' with ring := none })).ledgerFree c.id
  | .gone => (void s0).delReq key
  | _ => ((void (s0.leaveQueues key)).delReq key).ledgerFree c.id

/-- A request's checks pass (R178, R97): a reply already abandoned commits its record as NOT_SENT. -/
def State.passRequest (s : State) (key : Nat) (c : ReqCtx) : State :=
  match c.stage with
  | .gone =>
    let s1 := s.delReq key
    match c.ring with
    | some n => s1.recordDecide n key true 4 0
    | none => s1
  | _ => s.setReq key { c with checks := .passed s.now }

/-- Captures an admitted REQUEST into its ring (R95 to R98); `marks` are the frame's bytes in poisoned units (R414). -/
def State.capture (s : State) (key : Nat) (c : ReqCtx) (b : List Byte) (stamp : Instant) (marks : List Nat) :
    ReqCtx × State :=
  match s.recordRing c.slot with
  | none => (c, s)
  | some n =>
    let body := b.take (b.length - 4)
    let hdr := recordHeader c.id body.length c.slot c.port c.tmpl 0 0 stamp
    let (ok, s1) := s.recordBegin n key hdr body stamp c.port c.car.prio marks
    let c1 := { c with ring := if ok then some n else none }
    (c1, s1.setReq key c1)

/-- The capture of a request, and the end of its record as void when a control word of it fails (Table 15.4).
Assumption log 137 (DEDUCED). -/
def State.captureRecord (s : State) (key : Nat) (c : ReqCtx) (b : List Byte) (stamp : Instant) (marks : List Nat)
    (ctl : Bool) : State :=
  let (c1, s1) := s.capture key c b stamp marks
  match c1.ring with
  | some n => if ctl then (s1.recordDecide n key false 0 0).setReq key { c1 with ring := none } else s1
  | none => s1

/-! ### A message's fate -/

/-- CONTROL_QUEUED (R129, R131). -/
def State.queueControl (s : State) (m : CtlMsg) : State :=
  if 16 ≤ s.hly.ctlQueue.length then
    let s1 := (s.hlyCnt 19).raise F.HLY_EVENTS_CTRL_BUSY
    if m.isEcho then s1 else s1.ledgerFree m.id
  else { s with hly := { s.hly with ctlQueue := s.hly.ctlQueue ++ [m] } }

/-- A ledger discard is counted under its cause when the port accepts the message (R121). -/
def State.countDiscard (s : State) (i : Nat) : State :=
  match i with
  | 8 => (s.hlyCnt 8).raise F.HLY_EVENTS_NO_MODEL
  | 9 => (s.hlyCnt 9).raise F.HLY_EVENTS_DUP_OPEN
  | 10 => (s.hlyCnt 10).raise F.HLY_EVENTS_ID_CONFLICT
  | 11 => (s.hlyCnt 11).raise F.HLY_EVENTS_LEDGER_FULL
  | _ => s.recCnt 12

/-- The message of an accepted frame, with the ledger's verdict on it. Assumption log 41 (DEDUCED). -/
def State.acceptMessage (s : State) (p : Nat) (b : List Byte) (ip off : Nat) (v : InMsg) : State :=
  let m := (b.take (b.length - 4)).drop off
  let car := s.carriage p b ip off
  let s0 := if v.kind = hkRequest then s.ethCnt p 25 else if v.kind = hkUpdate then s.ethCnt p 26 else s
  match v.verdict with
  | .discard i => s0.countDiscard i
  | .echo =>
    if v.kind = hkControl then
      s0.queueControl { key := 0, id := v.id, port := p, car := car, msg := m, isEcho := true }
    else s0.sendEcho p v.id car
  | .admitted key =>
    if v.kind = hkRequest then
      match tfind key s0.cut.reqs with
      | some c => s0.passRequest key (if c.msg.length < m.length then { c with msg := m } else c)
      | none => s0
    else if v.kind = hkUpdate then
      match tfind key s0.hly.upds with
      | some u => s0.updAccept key u m
      | none => s0
    else s0.queueControl { key := key, id := v.id, port := p, car := car, msg := m, isEcho := false }

/-- An admitted message of a dropped frame (Table 4.13, R180). -/
def State.dropMessage (s : State) (v : InMsg) : State :=
  match v.verdict with
  | .admitted key =>
    if v.kind = hkRequest then
      match tfind key s.cut.reqs with
      | some c => s.dropRequest key c
      | none => s
    else if v.kind = hkUpdate then
      match tfind key s.hly.upds with
      | some u => (s.updFree key u).ledgerFree v.id
      | none => s
    else s.ledgerFree v.id
  | _ => s

/-- Whether the reply to a message was already closed, or its trailer came due, before this fate cycle (R179). -/
def State.lateFate (s : State) (v : InMsg) : Bool :=
  match v.verdict with
  | .admitted key =>
    match tfind key s.cut.reqs with
    | some c => c.cutShort || (decide (c.stage = .launched) && decide (s.trailerDue c < s.now))
    | none => false
  | _ => false

/-- The message in flight of a frame: what LEDGER_CHECK left for it, or the check made now. -/
def State.flightMsg (s : State) (p : Nat) (b : List Byte) (off first : Nat) (pre : Bool) : Option InMsg × State :=
  let h := slice b off 32
  let mine (x : InMsg) : Bool := decide (x.id = reqIdOf h) && decide (x.kind = kindOf h)
  let s1 := match tfind (flight p pre) s.hly.inMsg with
    | some x => if mine x then s else s.ledgerCheck p b first pre
    | none => s.ledgerCheck p b first pre
  let r := (tfind (flight p pre) s1.hly.inMsg).filter mine
  (r, { s1 with hly := { s1.hly with inMsg := tdel (flight p pre) s1.hly.inMsg } })

/-- A frame of Halyard carriage: `cause` is its Table 2.2 cause, HALYARD apart; `marks` and `ctl` as for a plain frame, of
its query record. Assumption log 42 (DEDUCED). -/
def State.halyardFate (s : State) (p : Nat) (b : List Byte) (ip off first : Nat) (pre : Bool) (cause : Option Nat)
    (marks : List Nat) (ctl : Bool) : State :=
  let (v, s1) := s.flightMsg p b off first pre
  let stamp := s.rxStamp p (s.now - first)
  -- capture as the request streams in
  let s2 := match v with
    | some x =>
      match x.verdict with
      | .admitted key =>
        match tfind key s1.cut.reqs with
        | some c => if x.kind = hkRequest then s1.captureRecord key c b stamp marks ctl else s1
        | none => s1
      | _ => s1
    | none => s1
  let late := match v with
    | some x => s2.lateFate x
    | none => false
  let mal := match s.malformed b ip off with
    | some i => some (if late then min i 4 else i)
    | none => if late then some 4 else none
  match cause with
  | some c => let s3 := s2.ethCnt p c
              match v with
              | some x => s3.dropMessage x
              | none => s3
  | none =>
    match mal with
    | some i =>
      let s3 := ((s2.ethCnt p dcHalyard).hlyCnt i).raise F.HLY_EVENTS_MALFORMED
      (match v with
       | some x => s3.dropMessage x
       | none => s3)
    | none =>
      let s3 := s2.countAccepted p b
      match v with
      | some x => s3.acceptMessage p b ip off x
      | none => s3

/-- A frame that is not Halyard carriage; `marks` as for capture, `ctl` when a control word of its place in a ring's
buffers fails, which ends it there as a drop (Table 15.4). -/
def State.plainFate (s : State) (p : Nat) (b : List Byte) (first : Nat) (pre : Bool) (cause : Option Nat)
    (marks : List Nat) (ctl : Bool) : State :=
  let i := s.frameInfo p b
  let toRing := s.destOk p i b && s.etypeOk p i b && decide (i.etype ≠ 0x8808) &&
    (!pre || (s.ethPort p).preemptEff.testBit 0)
  let it : RxItem := { rest := b.take (min (b.length - 4) (s.maxFrame p)), port := p, prio := i.prio, vlan := i.tagged,
                       len := b.length, stamp := s.rxStamp p (s.now - first), start := first, marks := marks }
  let n := s.steer p i.prio
  match cause with
  | some c =>
    let s1 := s.ethCnt p c
    if toRing then s1.ringReceive n it true else s1
  | none =>
    let s1 := s.countAccepted p b
    if i.etype = 0x8808 then s1.macControl p b else s1.ringReceive n it ctl

/-- A frame's fate on a port (R49): dropped under its highest-placed cause, or accepted.
Assumption log 29 (DEDUCED), 35 (DEDUCED). -/
def State.frameFate (s : State) (p : Nat) (b : List Byte) (phyErr reasmErr pre : Bool) (first : Nat)
    (marks : List Nat := []) (ctl : Bool := false) : State :=
  let badPre := pre && !(s.ethPort p).preemptEff.testBit 0
  let cause := s.macDrop p b phyErr (reasmErr || badPre)
  match s.carriageOf p b with
  | some (ip, off) => s.halyardFate p b ip off first pre cause marks ctl
  | none => s.plainFate p b first pre cause marks ctl

/-- FRAME_RECEIVED (R49): a frame, FCS included, whose first byte crossed `ago` cycles back; `phyErr` when the PCS marked
a block of it (R45) or it was cut short, `reasmErr` when a fragment breaks the Clause 99 rules, `frags` its mPackets when
it was preempted, `pre` when it arrived in preemptable mPackets. Before READY it is discarded whole (R454). `path` lists
the path code errors met on its way to its ring (R414, R415): the byte of the frame at which the word lies, and 0 one
bit, 1 two bits, 2 two bits of a control word. Assumption log 28 (DEDUCED), 137 (DEDUCED). -/
def execFrameReceived (p : Fin 16) (bytes : List Byte) (phyErr reasmErr : Bool) (frags : Nat) (pre : Bool) (ago : Nat)
    (path : List (BitVec 16 × Fin 3)) (s : State) : Host.Outcome State Fault Refusal :=
  if !s.linkUp p then done s else
  let first := s.now - ago
  let early := match s.boot.readyAt with
    | some r => decide (first < r)
    | none => true
  if early then done ((s.cnt R.BOOT_PRE_READY_DROPS).raise F.BOOT_EVENTS_PRE_READY_DROP)
  else
    let s0 := s.pathErrs (path.map fun e => e.2 != 0)
    let s1 := if frags = 0 then s0 else s0.ethCnt p 27 frags
    done (s1.frameFate p bytes phyErr reasmErr pre first
      ((path.filter fun e => e.2 = 1).map fun e => e.1.toNat) (path.any fun e => e.2 = 2))

/-! ### The link of a port -/

/-- Every frame that waits at a port, or is being sent, is abandoned (R46, Table 4.13). -/
def State.abandonTx (s : State) (p : Nat) : State :=
  let e := s.ethPort p
  let going := e.inProg.toList ++ e.susp.toList
  -- frames already started: abandoned and counted
  let s1 := going.foldl (fun s f =>
    match f.kind with
    | .reply key =>
      match tfind key s.cut.reqs with
      | some c => s.abandonReply key c
      | none => s
    | .ack id =>
      let s' := s.ethCnt p 51
      if f.answerKind = 0 then s' else s'.ledgerEcho id { kind := f.answerKind, body := f.answerBody }
    | .ring _ => s.ethCnt p 51
    | _ => s.ethCnt p 51) s
  -- frames offered and not started
  let s2 := e.waiting.foldl (fun s f =>
    match f.kind with
    | .ack id =>
      let s' := s.ethCnt p 51
      if f.answerKind = 0 then s' else s'.ledgerEcho id { kind := f.answerKind, body := f.answerBody }
    | _ => s.ethCnt p 51) s1
  let s3 := (s2.cut.reqs.filter fun x => decide (x.2.port = p) && decide (x.2.stage = .ready) &&
      decide (x.2.replyAt ≤ s.now)).foldl (fun s x => s.abandonReply x.1 x.2) s2
  let s4 := if e.genWait.isSome then s3.ethCnt p 51 else s3
  let s5 := s4.modEth p fun e => { e with inProg := none, susp := none, waiting := [], genWait := none }
  let rings := (s5.ethPort p).staging.filter fun f => f.ready
  rings.foldl (fun s f => (if f.started then s else s.ethCnt p 51).endStaged p f.ring dsLinkDown) s5

/-- R46: a port loses its link. `rx` is what had crossed of the frame being received, when there is one; `pre` and
`ago` as for a received frame; `align` when PCS lanes or FEC lost alignment. Assumption log 35 (DEDUCED). -/
def State.dropLink (s : State) (p : Nat) (rx : Option (List Byte × Bool × Nat)) (align : Bool) : State :=
  let was := s.linkUp p
  let s0 := s.noteWaits p true none
  let s1 := match rx with
    | some (b, pre, ago) =>
      let first := s0.now - ago
      let early := match s0.boot.readyAt with
        | some r => decide (first < r)
        | none => true
      if !was then s0
      else if early then (s0.cnt R.BOOT_PRE_READY_DROPS).raise F.BOOT_EVENTS_PRE_READY_DROP
      else s0.frameFate p (b ++ [0, 0, 0, 0]) true false pre first
    | none => s0
  let s2 := s1.sf (F.ETH_PORT_STATUS_LINK_UP p) 0
  let s3 := (s2.abandonTx p).endPauses p
  let s4 := if align then s3.sf (F.ETH_PORT_STATUS_ALIGNED p) 0 else s3
  let mask := (if was then 1 else 0) + (if align then 2 else 0)
  ((if mask = 0 then s4 else s4.raiseMask (R.ETH_PORT_EVENTS p) mask).restartVerify p).pauseCheck p

/-- ENABLE of a port. -/
def State.portOn (s : State) (p : Nat) : Bool := s.flag (F.ETH_PORT_CTRL_ENABLE p)

/-- ETH_LINK_UP (R43): training completes at the configured rate; alignment holds and the faults have ended. -/
def execEthLinkUp (p : Fin 16) (s : State) : Host.Outcome State Fault Refusal :=
  if !s.portOn p || s.linkUp p || decide (s.modState < msLinking) || decide (s.modState = msFailed) || s.pwr.serdesLost then
    done s else
  let s1 := ((s.sf (F.ETH_PORT_STATUS_ALIGNED p) 1).sf (F.ETH_PORT_STATUS_LOCAL_FAULT p) 0).sf
    (F.ETH_PORT_STATUS_REMOTE_FAULT p) 0
  done ((s1.sf (F.ETH_PORT_STATUS_LINK_UP p) 1).restartVerify p)

/-- ETH_LINK_DOWN (R46): a port loses PCS alignment (`align`), or its link to a local or a remote fault. -/
def execEthLinkDown (p : Fin 16) (rx : Option (List Byte × Bool × Nat)) (align localF remoteF : Bool) (s : State) :
    Host.Outcome State Fault Refusal :=
  if !s.portOn p then done s else
  let lost := align && s.flag (F.ETH_PORT_STATUS_ALIGNED p)
  let s1 := s.dropLink p rx lost
  let s2 := if localF then (s1.sf (F.ETH_PORT_STATUS_LOCAL_FAULT p) 1).raise (F.ETH_PORT_EVENTS_LOCAL_FAULT_SEEN p) else s1
  done (if remoteF then (s2.sf (F.ETH_PORT_STATUS_REMOTE_FAULT p) 1).raise (F.ETH_PORT_EVENTS_REMOTE_FAULT_SEEN p) else s2)

/-- ENABLE of a port changes from 1 to 0 (R46): with the link up every effect of R46 but ALIGN_LOST; the lanes power
down. -/
def State.portDisable (s : State) (p : Nat) (rx : Option (List Byte × Bool × Nat)) : State :=
  if !s.portOn p then s else
  let s1 := if s.linkUp p then s.dropLink p rx false else s
  (s1.sf (F.ETH_PORT_CTRL_ENABLE p) 0).wrN (R.ETH_PORT_STATUS p) 0

/-- PORT_ENABLE (R46, Table 2.8): the lanes are powered and link training begins. A FAILED module's ports stay down
(R385, R455). -/
def execPortEnable (p : Fin 16) (s : State) : Host.Outcome State Fault Refusal :=
  done (s.sf (F.ETH_PORT_CTRL_ENABLE p) 1)

/-- PORT_DISABLE (R46). Assumption log 24 (DEDUCED). -/
def execPortDisable (p : Fin 16) (rx : Option (List Byte × Bool × Nat)) (s : State) : Host.Outcome State Fault Refusal :=
  done (s.portDisable p rx)

end Sys2Proof.Machine
end

