-- ==== Sys2Proof/Machine/Serve.lean ====
section
/-! DEFINITION. Atomics (R343 to R345) and fixed-order reductions (R347 to R352), as the module performs them for
itself and for others. -/

namespace Sys2Proof.Machine

/-! ### Atomics -/

/-- The value an atomic stores (R343); none when a compare-and-swap does not match. `n` bytes.
Assumption log 106 (DEDUCED). -/
def atomicNew (op n old operand compare : Nat) : Option Nat :=
  let w := 8 * n
  if op = opAdd then some ((old + operand) % 2 ^ w)
  else if op = opUmax then some (max old operand)
  else if op = opSmax then some (if sgn w old < sgn w operand then operand else old)
  else if old = compare then some operand else none

/-- An atomic on a module-local offset: STATUS, old value, state. HBM only (NOT_ATOMIC), and not on a poisoned unit
(R345). -/
def State.atomicLocal (s : State) (src : Src) (op addr n operand compare : Nat) (serving : Bool) : Nat × List Byte × State :=
  if addr % n ≠ 0 then (stMisaligned, [], s) else
  match placeOf (gOff addr) with
  | .hbm off =>
    if s.hbmPoisoned off n then (stPoisoned, [], s) else
      let d := s.hbmRead off n
      let s1 := s.holdTouch off n false serving
      match atomicNew op n (leNat d) operand compare with
      | some v => (stOk, d, (s1.holdTouch off n true serving).hbmWrite off (leBytes n v))
      | none => (stOk, d, s1)
  | .site _ _ _ _ => (stNotAtomic, [], s)
  | .ctl _ => (stNotAtomic, [], s)
  | .unmapped => (stUnmapped, [], s.decodeRefuse (srcCode src) deUnmapped addr)

/-! ### Reductions -/

/-- A reduction group of a die. -/
def State.redGroup (s : State) (die g : Nat) : RedGroup := tget (fun _ => {}) s.rig.groups (die * 256 + g)
/-- Changes a reduction group. -/
def State.modGroup (s : State) (die g : Nat) (f : RedGroup → RedGroup) : State :=
  { s with rig := { s.rig with groups := tmod (fun _ => {}) s.rig.groups (die * 256 + g) f } }

/-- Chunks of a vector (R349). -/
def RedGroup.chunks (g : RedGroup) : Nat := cdiv g.length 64
/-- Elements of chunk j. -/
def RedGroup.elems (g : RedGroup) (j : Nat) : Nat := min 64 (g.length - 64 * j)

/-- Chunks a die's engine holds staged. -/
def State.redStaged (s : State) (die : Nat) : Nat :=
  s.rig.groups.foldl (fun n e => if e.1 / 256 = die then n + e.2.staged.length else n) 0

/-- RED_OCC follows the staging region. -/
def State.syncStage (s : State) (die : Nat) : State := s.sf (F.RED_OCC_CHUNKS die) (s.redStaged die)

/-- The POISON bits of a sum that a contribution's POISON bits reach (R349): of bfloat16 payload a unit holds the
elements of two units of the sum. -/
def widePoison (bf16 : Bool) (pz : Nat) : Nat :=
  (List.range 4).foldl (fun m u => if pz.testBit (if bf16 then u / 2 else u) then m + 2 ^ u else m) 0

/-- Marks that stood on the units of `n` bytes at `a` stand again: a sum with a poisoned partial sum is poisoned (R213). -/
def keepMarks (old new : List (Nat × Bool)) (a n : Nat) : List (Nat × Bool) :=
  (List.range ((a + n - 1) / 64 + 1 - a / 64)).foldl (fun m i =>
    if tget noMark old (a / 64 + i) then tset noMark m (a / 64 + i) true else m) new

/-- apply(slot, c) of R349: chunk j of round r takes the contribution of the next slot. -/
def State.redApply (s : State) (die gi : Nat) (c : Staged) (bf16 : Bool) : State :=
  let g := s.redGroup die gi
  let base := g.dest + (c.round % 2) * 4 * g.length + 256 * c.chunk
  let k := g.elems c.chunk
  let wide (e : Nat) : W32 := if bf16 then bfWide (leAt c.data (2 * e) 2) else BitVec.ofNat 32 (leAt c.data (4 * e) 4)
  let old (e : Nat) : W32 := BitVec.ofNat 32 (leNat (s.hbmRead (base + 4 * e) 4))
  let new := (List.range k).flatMap fun e =>
    leBytes 4 (if c.slot = 0 then wide e else fadd (old e) (wide e)).toNat
  let key := ((c.round + 2 ^ 16 - g.rc % 2 ^ 16) % 2 ^ 16) * 2 ^ 18 + c.chunk
  let s1 := (s.holdTouch base (4 * k) true false).hbmWrite base new (widePoison bf16 c.poison)
  let s2 := if c.slot = 0 then s1 else { s1 with hbmPoison := keepMarks s.hbmPoison s1.hbmPoison base (4 * k) }
  s2.modGroup die gi fun g => { g with next := tins key (c.slot + 1) g.next }

/-- The next slot of a chunk of a round at distance δ from the current one. -/
def RedGroup.nextOf (g : RedGroup) (delta j : Nat) : Nat := tget (fun _ => 0) g.next (delta * 2 ^ 18 + j)

/-- Applies what is staged for a chunk in slot order (R349). -/
def redDrain (die gi round j delta : Nat) : Nat → State → State
  | 0, s => s
  | fuel + 1, s =>
    let g := s.redGroup die gi
    match g.staged.find? fun x => x.round = round && x.chunk = j && x.slot = g.nextOf delta j with
    | none => s
    | some c =>
      let s1 := s.modGroup die gi fun g => { g with staged := g.staged.erase c }
      redDrain die gi round j delta fuel (s1.redApply die gi c g.bf16)

/-- Writes a DONE word (R350, R352) as a released write of the reduction engine. -/
def State.doneWord (s : State) (die addr v : Nat) : State :=
  if s.isOwn (gModule addr) then (s.localWrite (.strand (Fin.ofNat 4 die)) addr (leBytes 8 v) 0 false).2
  else s.issue (.reduction die) die opWrite addr 8 0 2 (leBytes 8 v)

/-- The current round gives way to the next one. -/
def RedGroup.shift (g : RedGroup) : RedGroup :=
  { g with
    rc := (g.rc + 1) % 2 ^ 16
    next := g.next.filterMap fun e => if e.1 < 2 ^ 18 then none else some (e.1 - 2 ^ 18, e.2)
    first0 := g.first1
    first1 := none }

/-- Completes the current round while every chunk has all its slots (R350). -/
def redComplete (die gi : Nat) : Nat → State → State
  | 0, s => s
  | fuel + 1, s =>
    let g := s.redGroup die gi
    if g.declared && (List.range g.chunks).all fun j => decide (g.nSlots ≤ g.nextOf 0 j) then
      let s1 := (s.doneWord die g.doneAddr (g.rc % 2 ^ 16 + 2 ^ 16)).modGroup die gi RedGroup.shift
      redComplete die gi fuel (s1.rigCnt 15)
    else s

/-- The deadline of a round begun now (R352): 0 when REDUCE_TIMEOUT disables it. -/
def State.redDeadline (s : State) : Nat :=
  let t := s.gf F.RIG_REDUCE_TIMEOUT_TICKS
  if t = 0 then 0 else s.now + 32 * t

/-- Whether a further chunk fits the staging region: each takes 256 bytes. -/
def State.stageRoom (s : State) (die : Nat) : Bool :=
  decide ((s.redStaged die + 1) * 256 ≤ s.gf (F.RED_STAGE_SIZE_MIB die) * 2 ^ 20)

/-- A contribution arrives (R348 to R352): its STATUS and the state after it. Assumption log 84 (DEDUCED). -/
def State.reduceArrive (s : State) (die gi round chunk slot : Nat) (bf16 : Bool) (data : List Byte) (poison : Nat) :
    Nat × State :=
  let g := s.redGroup die gi
  if !g.declared || decide (g.chunks ≤ chunk) || decide (g.nSlots ≤ slot) then (stRedUnknown, s) else
  let delta := (round + 2 ^ 16 - g.rc % 2 ^ 16) % 2 ^ 16
  if 32768 ≤ delta then (stRedStale, s.rigCnt 14)
  else if 2 ≤ delta then (stRedBusy, s)
  else if decide (slot < g.nextOf delta chunk) ||
      g.staged.any (fun x => x.round = round && x.chunk = chunk && x.slot = slot) then
    (stRedDup, (s.rigCnt 13).raise F.RIG_EVENTS_RED_DUPLICATE)
  else
    let begin_ (g : RedGroup) : RedGroup :=
      if delta = 0 then { g with first0 := some (g.first0.getD s.redDeadline) }
      else { g with first1 := some (g.first1.getD s.redDeadline) }
    let c : Staged := ⟨round, chunk, slot, data, poison⟩
    if g.nextOf delta chunk < slot then
      if s.stageRoom die then
        (stOk, (((s.modGroup die gi fun g => { begin_ g with staged := g.staged ++ [c] }).rigCnt 11).syncStage die))
      else (stRedBusy, s)
    else
      let s1 := ((s.modGroup die gi begin_).redApply die gi c bf16).rigCnt 10
      let s2 := redDrain die gi round chunk delta (g.staged.length + 1) s1
      (stOk, (redComplete die gi 3 s2).syncStage die)

/-- Declares the reduction groups of a plan (R347); their rounds start from 0. -/
def State.declareGroups (s : State) (plan : Nat) (im : List Byte) : State :=
  let s0 := { s with rig := { s.rig with groups := s.rig.groups.filter fun e => decide (e.2.plan ≠ plan) } }
  (planGroups im).foldl (fun s (r : List Byte) =>
    s.modGroup (leAt r 1 1) (leAt r 0 1) fun _ =>
      { declared := true, plan := plan, nSlots := leAt r 2 2 + 1, length := leAt r 4 4, bf16 := leAt r 8 1 = 1
        dest := leAt r 9 8, doneAddr := leAt r 17 8 % 2 ^ 56 }) s0

/-- REDUCE_ROUND_TIMEOUT (R352): a round not completed in time fails; its half of DEST becomes undefined, DONE_ADDR
receives r with bits 16 and 63, its staged data go, and r_c advances. Assumption log 141 (DESIGN CHOICE). -/
def execReduceRoundTimeout (die : Fin 4) (group : Byte) (s : State) : Host.Outcome State Fault Refusal :=
  let g := s.redGroup die group.toNat
  match g.first0 with
  | some d =>
    if !g.declared || d = 0 then done s else
      let s0 := s.advanceTo d
      let s1 := (s0.hbmOpen (g.dest + (g.rc % 2) * 4 * g.length) (4 * g.length)).doneWord die g.doneAddr
        (g.rc % 2 ^ 16 + 2 ^ 16 + 2 ^ 63)
      let s2 := s1.modGroup die group.toNat fun g =>
        ({ g with staged := g.staged.filter fun x => x.round != g.rc } : RedGroup).shift
      done (((redComplete die group.toNat 2 ((s2.rigCnt 16).raise F.RIG_EVENTS_RED_FAILED))).syncStage die)
  | none => done s

end Sys2Proof.Machine
end

