-- ==== Sys2Proof/Machine/Fail.lean ====
section
/-! DEFINITION. Entering FAILED (R385). -/

namespace Sys2Proof.Machine

/-- A run is ended as R215 gives. -/
def State.stopRun (s : State) (key : Nat) : State :=
  s.modRun key fun r => { r with isOver := true, fault := some (r.fault.getD (r.cycle, 0)) }

/-- Sets MODULE_STATE. -/
def State.enter (s : State) (st : Nat) : State :=
  let s1 := s.sf F.MODULE_STATE_STATE st
  { s1 with boot := { s1.boot with stateAt := s.now } }

/-- The doorbell of R385 to the crow's nest: TAG 0xFA11 and a payload that carries the module's number. -/
def State.failDoorbell (s : State) (addr : Nat) : State :=
  let pay := leBytes 16 s.modnum
  if s.isOwn (gModule addr) then (s.ringDoorbell (addr % 2 ^ 16) s.modnum 0xFA11 pay).2
  else s.issue .mgmt 0 opDoorbell addr 16 0xFA11 2 pay

/-- Entering FAILED in service (R385). -/
def State.enterFailed (s : State) : State :=
  let s0 := { s with boot := { s.boot with failing := false } }
  if s0.modState = msFailed then s0 else
  let s1 := s0.enter msFailed
  let s2 := s1.grid.runs.foldl (fun s e => s.stopRun e.1) s1
  let s3 := (List.range 16).foldl (fun s p => s.portDisable p none) s2
  let s4 := s3.failDoorbell (Config.nestBell % 2 ^ 56)
  { s4 with recov := { s4.recov with hbStopped := true } }

/-- The end of a command that may have met a failure of R385. Assumption log 73 (DEDUCED). -/
def doneF (s : State) : Host.Outcome State Fault Refusal := done (if s.boot.failing then s.enterFailed else s)

end Sys2Proof.Machine
end

