-- ==== Sys2Proof/Machine/GridOps.lean ====
section
/-! DEFINITION. Strands (R195 to R208, R234 to R237, R249 to R299, R302): the meanings of the instructions that a plan
issues, of the starts and ends they lead to, and of holds, becalms and furls. An issue command names the site and the
strand: it acts when the slot table names that strand in the plan cycle in progress and the instruction fetched there
is the command's; otherwise nothing issues. -/

namespace Sys2Proof.Machine

/-- The end of a command that touches the grid. -/
def doneG (s : State) : Host.Outcome State Fault Refusal := doneF s.syncGrid

/-! ### Issue -/

/-- What issues: run, tile, strand context and instruction. -/
structure Issue where
  key : Nat
  run : Run
  tile : Tile
  st : Strand
  by_ : By
  ins : Ins
  deriving DecidableEq, Repr

/-- The plan cycle of issue, P. -/
def Issue.p (i : Issue) : Nat := i.run.cycle
/-- The site. -/
def Issue.site (i : Issue) : Nat := i.by_.site

/-- What the issue unit of a site issues for a strand in the CK_ARITH cycle in progress (R196, R215).
Assumption log 60 (DEDUCED). -/
def State.issuing (s : State) (site strand : Nat) : Option Issue :=
  match s.grid.runs.find? fun e => (e.2.tile? site).isSome && s.runs e.2 with
  | none => none
  | some (key, r) =>
    match r.tile? site with
    | none => none
    | some t =>
      match tfind strand t.strands, t.code[(tget (fun _ => {}) t.strands strand).pc]? with
      | some st, some w =>
        let slot := t.slots.getD (r.phase % t.slots.length) none
        let stopped := match r.fault with
          | some (f, _) => decide (f + 5 < r.cycle)
          | none => false
        if slot = some strand ∧ t.issued.isNone ∧ !st.ended ∧ st.free ≤ r.cycle ∧ !stopped then
          some ⟨key, r, t, st, ⟨site, strand, st.pc⟩, (insAt t.code st.pc).getD ⟨1, w.toNat⟩⟩
        else none
      | _, _ => none

/-- The next code word after one that ends at `pc`, with the loops left (R368: LOOP).
Assumption log 59 (DESIGN CHOICE). -/
def loopNext : List (Nat × Nat × Nat) → Nat → Nat × List (Nat × Nat × Nat)
  | [], pc => (pc, [])
  | (first, after, left) :: t, pc =>
    if pc = after then (if 1 < left then (first, (first, after, left - 1) :: t) else loopNext t pc)
    else (pc, (first, after, left) :: t)

/-- A strand past an instruction that ends at `pc`. -/
def Strand.goto (st : Strand) (pc : Nat) : Strand :=
  let (n, l) := loopNext st.loops pc
  { st with pc := n, loops := l }

/-- Changes the strand that issues. -/
def State.modStrand (s : State) (i : Issue) (f : Strand → Strand) : State :=
  s.modTile i.key i.site fun t =>
    { t with strands := tins i.by_.strand (f (tget (fun _ => {}) t.strands i.by_.strand)) t.strands }

/-- A breach by the instruction that issues. -/
def State.bad (s : State) (i : Issue) (cause : Nat) : State := s.breach i.key i.by_ cause

/-- Whether a site is out of bounds for a run (R217): a compute plan in the region, a neural plan outside it. SELFTEST is
not checked. -/
def State.trespass (s : State) (r : Run) (site : Nat) : Bool := !r.selftest && s.inRegion site != r.neural

/-- The instruction has issued: the slot is used and the strand moves on. -/
def State.passed (s : State) (i : Issue) : State :=
  let s1 := (s.modTile i.key i.site fun t => { t with issued := some i.p }).modStrand i fun st => st.goto (st.pc + i.ins.n)
  if s.trespass i.run i.site then s1.bad i fcTrespass else s1

/-- One issue: `legal` says what else is no reserved encoding, `eff` what the instruction does.
Assumption log 60 (DEDUCED). -/
def State.issueOp (s : State) (site strand op : Nat) (legal : Issue → Bool) (eff : Issue → State → State) : State :=
  match s.issuing site strand with
  | none => s
  | some i =>
    if ocWords i.ins.op = 0 then (s.passed i).bad i fcIllegal
    else if i.ins.op ≠ op then s
    else if i.ins.reserved || !legal i then (s.passed i).bad i fcIllegal
    else eff i (s.passed i)

/-- A site number from its parts, as commands name it. -/
def siteN (die : Fin 4) (row : Fin 32) (col : Fin 48) : Nat := siteOf die row col

/-- NOP (R368). -/
def execNop (die : Fin 4) (row : Fin 32) (col : Fin 48) (strand : Byte) (s : State) : Host.Outcome State Fault Refusal :=
  doneG (s.issueOp (siteN die row col) strand.toNat ocNop (fun _ => true) fun _ s => s)

/-- END (R368): the strand issues nothing further. -/
def execEnd (die : Fin 4) (row : Fin 32) (col : Fin 48) (strand : Byte) (s : State) : Host.Outcome State Fault Refusal :=
  doneG (s.issueOp (siteN die row col) strand.toNat ocEnd (fun _ => true) fun i s =>
    s.modStrand i fun st => { st with ended := true })

/-- LOOP (R368): the next LENGTH words run COUNT times; with COUNT 0 they are skipped.
Assumption log 59 (DESIGN CHOICE). -/
def execLoop (die : Fin 4) (row : Fin 32) (col : Fin 48) (strand : Byte) (s : State) : Host.Outcome State Fault Refusal :=
  doneG (s.issueOp (siteN die row col) strand.toNat ocLoop (fun _ => true) fun i s =>
    let count := bindSelf i.run.bucket (i.ins.f 16 3) (i.ins.f 0 16)
    let len := i.ins.f 19 12
    s.modStrand i fun st =>
      if len = 0 then st
      else if count = 0 then { i.st with } |>.goto (i.st.pc + 1 + len)
      else { st with pc := i.st.pc + 1, loops := (i.st.pc + 1, i.st.pc + 1 + len, count) :: i.st.loops })

/-! ### SEND -/

/-- A step of a route: a mesh link (site and direction), or a bridge channel. -/
inductive Hop where
  | link (site dir : Nat)
  | cross (src dst ch : Nat)
  deriving DecidableEq, Repr

/-- Key of a hop in `Run.links`. -/
def Hop.key : Hop → Nat
  | .link site dir => site * 4 + dir
  | .cross a b c => 2 ^ 20 + (a * 4 + b) * 64 + c

/-- East or west links (directions 0, 1) of a row from column c to column c'. -/
def rowHops (die r c c' : Nat) : List Hop :=
  if c ≤ c' then (List.range (c' - c)).map fun k => .link (siteOf die r (c + k)) 0
  else (List.range (c - c')).map fun k => .link (siteOf die r (c - k)) 1

/-- South or north links (directions 2, 3) of a column from row r to row r'. -/
def colHops (die c r r' : Nat) : List Hop :=
  if r ≤ r' then (List.range (r' - r)).map fun k => .link (siteOf die (r + k) c) 2
  else (List.range (r - r')).map fun k => .link (siteOf die (r - k) c) 3

/-- R200: to the destination column first, then to the row. Assumption log 63 (DEDUCED). -/
def meshHops (die r c r' c' : Nat) : List Hop := rowHops die r c c' ++ colHops die c' r r'

/-- Row of an east–west channel and column of a north–south channel (Table 7.3). -/
def chanRow (j : Nat) : Nat := if j < 32 then j else 2 + 4 * (j - 32)
def chanCol (j : Nat) : Nat := 6 * (j / 5) + j % 5

/-- The edge site (row, column) of a channel on `die` towards a neighbouring die (R201). -/
def edgeOf (die next ch : Nat) : Nat × Nat :=
  if next = die ^^^ 1 then (chanRow ch, if die % 2 = 0 then 47 else 0) else (if die < 2 then 31 else 0, chanCol ch)

/-- The route of a SEND (R200, R201): a diagonal die is reached east or west first. Assumption log 63 (DEDUCED). -/
def sendRoute (die r c die' r' c' ch ch2 : Nat) : List Hop :=
  let leg (a r c b ch : Nat) : List Hop × Nat × Nat :=
    let (er, ec) := edgeOf a b ch
    let (fr, fc) := edgeOf b a ch
    (meshHops a r c er ec ++ [.cross a b ch], fr, fc)
  if die = die' then meshHops die r c r' c'
  else if die' = die ^^^ 3 then
    let mid := die ^^^ 1
    let (h1, r1, c1) := leg die r c mid ch
    let (h2, r2, c2) := leg mid r1 c1 die' ch2
    h1 ++ h2 ++ meshHops die' r2 c2 r' c'
  else
    let (h1, r1, c1) := leg die r c die' ch
    h1 ++ meshHops die' r1 c1 r' c'

/-- The cycle, counted from the flit's first hop, in which each hop of a route is taken: one per link, 14 for a
crossing. Assumption log 63 (DEDUCED). -/
def hopTimes : List Hop → Nat → List (Nat × Hop)
  | [], _ => []
  | h :: t, k => (k, h) :: hopTimes t (match h with | .link _ _ => k + 1 | .cross _ _ _ => k + 14)

/-- Cycles a route takes: its hops, and 14 for each crossing (R199). -/
def routeTime (l : List Hop) : Nat :=
  l.foldl (fun n h => match h with | .link _ _ => n + 1 | .cross _ _ _ => n + 14) 0

/-- The sites a route touches. -/
def hopSites (dest : Nat) (l : List Hop) : List Nat :=
  dest :: l.filterMap fun h => match h with | .link s _ => some s | .cross _ _ _ => none

/-- Fields of a SEND (Table 13.5). -/
def Ins.sendDie (i : Ins) : Nat := i.f 0 2
def Ins.sendRow (i : Ins) : Nat := i.f 2 5
def Ins.sendCol (i : Ins) : Nat := i.f 7 6
def Ins.sendTarget (i : Ins) : Nat := i.f 13 4

/-- Whether a SEND is no reserved encoding: a destination that exists and is not its own site, a stream buffer only in a
C-tile, and channels 0 to 39 where a bridge is crossed. -/
def sendLegal (i : Issue) : Bool :=
  let n := i.ins
  let dest := siteOf n.sendDie n.sendRow n.sendCol
  let die := siteDie i.site
  decide (n.sendCol < 48) && dest != i.site && !(isM dest && n.sendTarget != 0) &&
  (n.sendDie = die || decide (n.f 17 6 < 40)) && (n.sendDie != die ^^^ 3 || decide (n.f 23 6 < 40))

/-- What the correction stage meets when a scheduled read of row `row` is issued in plan cycle P (Table 7.5, R210): two
symbols of an M-tile row becalm the domain when they are detected, in P + 4. -/
def State.schedErr (s : State) (i : Issue) (row cls : Nat) : State :=
  if isM i.site ∧ cls = 2 then
    s.modRun i.key fun r => { r with events := r.events ++ [(i.p + 4, .becalm i.site row)] }
  else s.meetErr i.site (sramKind i.site) row cls

/-- SEND (R200, R201): 1 to 256 flits leave, one per plan cycle, each read when it leaves and written at the destination
in P + 2 + d + i, 14 later for each bridge. `err` is what the correction stage meets in its first row; `path` lists path
code errors of its flits and whether each is uncorrectable, which poisons the flit (R414).
Assumption log 137 (DEDUCED). -/
def execSend (die : Fin 4) (row : Fin 32) (col : Fin 48) (strand : Byte) (err : Fin 4) (path : List (Byte × Bool))
    (s : State) : Host.Outcome State Fault Refusal :=
  doneG (s.issueOp (siteN die row col) strand.toNat ocSend sendLegal fun i s =>
    let n := i.ins
    let dest := siteOf n.sendDie n.sendRow n.sendCol
    let route := sendRoute die row col n.sendDie n.sendRow n.sendCol (n.f 17 6) (n.f 23 6)
    let flits := n.f 55 8 + 1
    let uses := (List.range flits).flatMap fun k => (hopTimes route 0).map fun (h : Nat × Hop) => (i.p + 2 + k + h.1, h.2.key)
    let hits := uses.filter fun u => s.grid.runs.any fun e => e.2.links.contains u
    let s1 := (s.schedErr i (n.f 29 13) err.val).pathErrs (path.map fun e => e.2)
    let s2 := if (hopSites dest route).any (s.trespass i.run) then s1.bad i fcTrespass else s1
    s2.modRun i.key fun r =>
      { r with
        links := r.links ++ uses
        events := r.events ++
          (List.range flits).map (fun k =>
            (i.p + k, .depart i.by_ (n.f 29 13 + (if isM i.site then k else 2 * k)) dest n.sendTarget
              (n.f 42 13 + (if isM dest then k else 2 * k)) (i.p + 2 + routeTime route + k)
              (path.any fun e => e.1.toNat = k && e.2))) ++
          hits.map fun u => (u.1, .breach i.by_ fcMesh) })

/-! ### AWAIT, holds, becalms -/

/-- AWAIT (R206, R207): reserved in a neural plan; else its counter is tested at the end of this cycle. -/
def execAwait (die : Fin 4) (row : Fin 32) (col : Fin 48) (strand : Byte) (s : State) : Host.Outcome State Fault Refusal :=
  doneG (s.issueOp (siteN die row col) strand.toNat ocAwait (fun i => !i.run.neural) fun i s =>
    s.modRun i.key fun r =>
      { r with awaits := r.awaits ++
          [⟨i.p, i.site, strand.toNat, i.st.pc, acKey i.site strand.toNat (i.ins.f 0 2), i.ins.f 2 32, s.arith, none⟩] })

/-- SETAC (R205). -/
def execSetac (die : Fin 4) (row : Fin 32) (col : Fin 48) (strand : Byte) (s : State) : Host.Outcome State Fault Refusal :=
  doneG (s.issueOp (siteN die row col) strand.toNat ocSetac (fun _ => true) fun i s =>
    s.acSet (acKey i.site strand.toNat (i.ins.f 0 2)) (i.ins.f 2 32))

/-- HOLD_RELEASE (R207): once every condition that holds the plan is met, plan cycle A + 6 begins in the first unfrozen
cycle at or after S + 7. -/
def execHoldRelease (s : State) : Host.Outcome State Fault Refusal :=
  let tick (s : State) : State := s.advanceTo ((s.now / 2 + 1) * 2)
  let s1 := match s.run? 0 with
    | some r => if r.awaits.any (fun a => a.met.isNone && s.acMet a.ac a.value) then tick s else s
    | none => s
  match s1.run? 0 with
  | none => doneG s1
  | some r =>
    if !s1.held r || r.awaits.any (fun a => a.met.isNone && decide (a.cycle + 6 ≤ r.cycle)) then doneG s1
    else
      let s2 := s1.advanceTo (2 * r.awaits.foldl (fun m a => max m ((a.met.getD 0) + 7)) 0)
      doneG (if s2.becalmed then s2.advanceTo (2 * s2.grid.freezes.foldl (fun m f => max m (f.2 + 1)) 0) else s2)

/-- AWAIT_TIMEOUT (R208): a hold has lasted more than AWAIT_LIMIT CK_TICK cycles; the plan faults.
Assumption log 71 (DEDUCED). -/
def execAwaitTimeout (s : State) : Host.Outcome State Fault Refusal :=
  match s.run? 0 with
  | none => done s
  | some r =>
    match r.awaits.filter fun a => a.met.isNone && a.issued != s.arith with
    | [] => done s
    | a :: _ =>
      let lim := s.gf (F.GRID_AWAIT_LIMIT_TICKS (siteDie a.site))
      if lim = 0 then done s else
        let s1 := s.advanceTo (2 * (a.issued + 6) + 32 * lim + 2)
        let s2 := (s1.breach 0 ⟨a.site, a.strand, a.pc⟩ fcAwait).closeFaults 0
        doneG (s2.modRun 0 fun r => { r with awaits := [] })

/-- BECALM_END (R210): the frozen cycles pass and the schedule domain resumes. -/
def execBecalmEnd (s : State) : Host.Outcome State Fault Refusal :=
  match s.grid.freezes with
  | [] => done s
  | l => doneG (s.advanceTo (2 * l.foldl (fun m f => max m (f.2 + 1)) 0))

/-! ### FURL and UNFURL -/

/-- Whether a tile holds a RESIDENT row of another owner (R234). -/
def State.holdsForeign (s : State) (site owner : Nat) : Bool :=
  (tget (fun _ => []) s.grid.residency site).any fun (r : ResRange) => r.owner != owner

/-- FURL (R234). Assumption log 72 (DEDUCED). -/
def execFurl (die : Fin 4) (row : Fin 32) (col : Fin 48) (strand : Byte) (s : State) : Host.Outcome State Fault Refusal :=
  doneG (s.issueOp (siteN die row col) strand.toNat ocFurl (fun i => !isM i.site) fun i s =>
    if s.holdsForeign i.site i.run.owner then s.bad i fcOwner else
      s.modTile i.key i.site fun t =>
        (List.range 16).foldl (fun (t : Tile) b =>
          if (i.ins.f 0 16).testBit b && !t.furled.testBit b then
            { t with furled := t.furled ||| 2 ^ b, furlFrom := tins b (i.p + 1) t.furlFrom }
          else t) t)

/-- UNFURL (R237): each furling or furled bank of the mask is erased and usable from U + 32. -/
def execUnfurl (die : Fin 4) (row : Fin 32) (col : Fin 48) (strand : Byte) (s : State) : Host.Outcome State Fault Refusal :=
  doneG (s.issueOp (siteN die row col) strand.toNat ocUnfurl (fun i => !isM i.site) fun i s =>
    s.modTile i.key i.site fun t =>
      (List.range 16).foldl (fun (t : Tile) b =>
        if (i.ins.f 0 16).testBit b && t.furled.testBit b && (tfind b t.erase).isNone then
          { t with erase := tins b (i.p + 32) t.erase }
        else t) t)

/-- FURL_COMPLETE (R235): a furling bank without an outstanding side-port write powers down. -/
def execFurlComplete (die : Fin 4) (row : Fin 32) (col : Fin 48) (s : State) : Host.Outcome State Fault Refusal :=
  let site := siteN die row col
  doneG ((s.usersOf site).foldl (fun s (u : Nat × Run × Tile) =>
    let due := u.2.2.furlFrom.foldl (fun m e => max m e.2) 0
    let s1 := if u.2.2.furled = 0 then s else s.advancePlan u.1 due
    match (s1.run? u.1).bind fun r => (r.tile? site).map fun t => (r, t) with
    | some (r, t) => s1.furlDone u.1 r.cycle site t
    | none => s1) s)

/-- UNFURL_ERASE (R237): in plan cycle U + 32 every cell of the bank is erased to zero and the bank is usable. -/
def execUnfurlErase (die : Fin 4) (row : Fin 32) (col : Fin 48) (bank : Fin 16) (s : State) :
    Host.Outcome State Fault Refusal :=
  let site := siteN die row col
  doneG ((s.usersOf site).foldl (fun s (u : Nat × Run × Tile) =>
    match tfind bank.val u.2.2.erase with
    | some c => (s.advancePlan u.1 c).eraseDue site
    | none => s) s)

/-! ### VEC -/

/-- One cell of a VEC (R368): ADD, MUL, MAX in binary32, rounded to bfloat16; COPY as it is. -/
def vecCell (f a b : Nat) : Nat :=
  let x := bfWide a
  let y := bfWide b
  if f = 0 then bfEnc (fdec (fadd x y))
  else if f = 1 then bfEnc (fdec (fmul x y))
  else if f = 2 then
    (if fvZero (bfDec a) && fvZero (bfDec b) && a != b then bfEnc (fdec (Config.zeroMax x y)) else bfEnc (fdec (fmaxNan x y)))
  else a

/-- VEC (R368): rows SRC_A and SRC_B are read in P, as one access, and row DST is written in P + 4. Poison is carried by COPY and consumed by
the others (R214). -/
def execVec (die : Fin 4) (row : Fin 32) (col : Fin 48) (strand : Byte) (err : Fin 4) (s : State) :
    Host.Outcome State Fault Refusal :=
  doneG ((s.eraseDue (siteN die row col)).issueOp (siteN die row col) strand.toNat ocVec (fun i => !isM i.site) fun i s =>
    let f := i.ins.f 0 4
    let a := i.ins.f 4 13
    let b := i.ins.f 17 13
    let rows := if f = 3 then [a] else [a, b]
    let s0 := s.schedErr i a err.val
    let s1 := s0.accessBreach i.key i.by_ i.tile i.run.owner rows
    let ra := s0.rowRead i.site a
    let rb := s0.rowRead i.site b
    let d := (List.range 16).flatMap fun c => leBytes 2 (vecCell f (leAt ra (2 * c) 2) (leAt rb (2 * c) 2))
    let pz := rows.any (s0.rowMark i.site)
    let s2 := if pz && f != 3 && !i.run.neural then s1.bad i fcPoison else s1
    s2.modRun i.key fun r =>
      { r with events := r.events ++ [(i.p, .read i.by_), (i.p + 4, .row i.by_ (i.ins.f 30 13) d (allNibbles i.site) pz)] })

/-! ### MATMUL and RESCALE -/

/-- Whether the sheets a matrix instruction names are legal for it (R284, R287). -/
def sheetsLegal (t : Tile) (i : Ins) (q : Nat) : Bool :=
  let ok (field fmt : Nat) (isB : Bool) : Bool :=
    field = 0xFF || (match t.sheet field with
      | none => false
      | some sh => !sh.bad && (!sh.priv || fmt = fmYq4) && (sh.src != 2 || (i.sheetBuf q isB).isSome))
  let streams (field : Nat) : Nat := match t.sheet field with
    | some sh => b2n (sh.src = 2)
    | none => 0
  ok (i.f 116 8) (i.f 4 4) false && ok (i.f 124 8) (i.f 8 4) true &&
  decide (streams (i.f 116 8) + streams (i.f 124 8) ≤ 1)

/-- MATMUL (R250, R251): issues on an array strand and is scheduled to start at S. -/
def execMatmul (die : Fin 4) (row : Fin 32) (col : Fin 48) (strand : Byte) (s : State) : Host.Outcome State Fault Refusal :=
  doneG (s.issueOp (siteN die row col) strand.toNat ocMatmul
    (fun i => !isM i.site && decide (strand.toNat < 4) && sheetsLegal i.tile i.ins strand.toNat) fun i s =>
      let q := strand.toNat
      let steps := (i.ins.shape i.run.bucket (i.run.variant = 1)).steps
      let first := i.p + 1 + i.ins.f 357 4
      let start := match tfind q i.tile.matPrev with
        | some (sp, n) => max first (sp + 16 * n)
        | none => first
      (s.modTile i.key i.site fun t =>
        { t with
          mats := t.mats ++ [{ q := q, w := i.ins.v, pc := i.st.pc, start := start, steps := steps }]
          matPrev := tins q (start, steps) t.matPrev }).modStrand i fun st => { st with free := start })

/-- Errors the correction stage meets in rows an operation reads: (accumulators or scratchpad, row, class).
Assumption log 75 (DEDUCED). -/
def State.meetErrs (s : State) (site : Nat) (errs : List (Bool × BitVec 13 × Fin 4)) : State :=
  errs.foldl (fun s e => s.meetErr site (if e.1 then 1 else sramKind site) e.2.1.toNat e.2.2.val) s

/-- MATMUL_START (R252): the clock runs to the start cycle S of the waiting instruction of an array; its steps then run
on the fixed timing of Table 9.1 as plan cycles pass. -/
def execMatmulStart (die : Fin 4) (row : Fin 32) (col : Fin 48) (q : Fin 4) (errs : List (Bool × BitVec 13 × Fin 4))
    (s : State) : Host.Outcome State Fault Refusal :=
  let site := siteN die row col
  doneG ((s.usersOf site).foldl (fun s (u : Nat × Run × Tile) =>
    match u.2.2.mats.find? fun m => m.q = q.val && decide (u.2.1.cycle ≤ m.start) with
    | some m => (s.advancePlan u.1 m.start).meetErrs site errs
    | none => s) s)

/-- Whether a RESCALE is legal: in a C-tile, and under a binding its records lie in the buffer (R303). -/
def rescaleLegal (i : Issue) : Bool :=
  !isM i.site && (match i.tile.bind with
    | some (_, _, nb) =>
      i.ins.rFmt = fmBf16 || (decide (nb ≤ i.ins.f 50 12) && decide (i.ins.f 50 12 ≤ nb + 3))
    | none => true)

/-- RESCALE (R297): scheduled to start at Q. -/
def execRescale (die : Fin 4) (row : Fin 32) (col : Fin 48) (strand : Byte) (s : State) : Host.Outcome State Fault Refusal :=
  doneG (s.issueOp (siteN die row col) strand.toNat ocRescale rescaleLegal fun i s =>
    let start := match i.tile.resPrev with
      | some q => max (i.p + 1) (q + 16)
      | none => i.p + 1
    (s.modTile i.key i.site fun t =>
      { t with
        rescs := t.rescs ++ [{ w := i.ins.v, pc := i.st.pc, strand := strand.toNat, start := start }]
        resPrev := some start }).modStrand i fun st => { st with free := start })

/-- RESCALE_START (R298): the clock runs to the start cycle Q of a tile's waiting RESCALE; it then runs on the timing of
Table 10.11 as plan cycles pass. -/
def execRescaleStart (die : Fin 4) (row : Fin 32) (col : Fin 48) (errs : List (Bool × BitVec 13 × Fin 4)) (s : State) :
    Host.Outcome State Fault Refusal :=
  let site := siteN die row col
  doneG ((s.usersOf site).foldl (fun s (u : Nat × Run × Tile) =>
    match u.2.2.rescs.find? fun m => decide (u.2.1.cycle ≤ m.start) with
    | some m => (s.advancePlan u.1 m.start).meetErrs site errs
    | none => s) s)

/-! ### The census buffer -/

/-- Free entries of an M-tile's command queue (R202). -/
def State.dmaFree (s : State) (m : Nat) : Nat := 256 - (s.grid.dma.filter fun c => c.site = m).length

/-- Queues the commands of a flush (R304): one for each record, at the M-tile of the triad. -/
def State.queueFlush (s : State) (key site seq ch : Nat) (recs : List (Nat × Census)) (ac : Option Nat) (atEnd : Bool) :
    State :=
  let m := triadM site
  let base := s.gf (F.SEQ_CENSUS_ADDRESS seq) / 32 * 32
  s.modGrid fun g =>
    let cmds := recs.zipIdx.map fun (x : (Nat × Census) × Nat) =>
      ({ id := g.nextDma + x.2, site := m, strand := 256, kind := 16, src := x.1.2.elems, dst := base + 32 * (ch + x.1.1)
         aux0 := x.1.2.sat, aux1 := x.1.2.under, len := x.1.2.amax, flush := some g.nextFlush, run := key } : DmaCmd)
    { g with dma := g.dma ++ cmds, nextDma := g.nextDma + recs.length
             flushes := tins g.nextFlush ⟨seq, ac, atEnd, recs.length⟩ g.flushes, nextFlush := g.nextFlush + 1 }

/-- Flushes a tile's census buffer (R304): one command for each record that is not all zero; none when they do not fit
(`some` names the counter of the CSET). Assumption log 70 (DEDUCED). -/
def State.flushCensus (s : State) (key site : Nat) (ac : Option Nat) (atEnd : Bool) : Option State :=
  match (s.run? key).bind fun r => r.tile? site with
  | none => some s
  | some t =>
    let recs := t.census.filter fun e => e.2 ≠ {}
    match t.bind with
    | none => if ac.isNone then some s else some (s.queueFlush key site 0 0 [] ac atEnd)
    | some (seq, ch, _) =>
      if s.dmaFree (triadM site) < recs.length ∧ !atEnd then none
      else some ((s.queueFlush key site seq ch recs ac atEnd).modTile key site fun t => { t with census := [] })

/-- CSET (R302, R304): the buffer is flushed under the old binding and the tile is bound anew. Reserved in neural plans
and commit sections, and for a sequence the plan has not declared. Assumption log 70 (DEDUCED). -/
def execCset (die : Fin 4) (row : Fin 32) (col : Fin 48) (strand : Byte) (s : State) : Host.Outcome State Fault Refusal :=
  doneG (s.issueOp (siteN die row col) strand.toNat ocCset
    (fun i => !i.run.neural && i.run.variant != 3 && (i.ins.f 0 1 = 0 || i.run.seqMask.testBit (i.ins.f 1 3))) fun i s =>
      match s.flushCensus i.key i.site (some (acKey i.site strand.toNat (i.ins.f 40 2))) false with
      | none => s.bad i fcDmaFull
      | some s1 => s1.modTile i.key i.site fun t =>
          { t with bind := if i.ins.f 0 1 = 1 then some (i.ins.f 1 3, i.ins.f 4 24, i.ins.f 28 12) else none })

end Sys2Proof.Machine
end

