-- ==== Sys2Proof/Machine/Dma.lean ====
section
/-! DEFINITION. DMA commands of M-tile strands (R202 to R204, R312 to R315, R337, R340 to R346, R349, R351, R369) and the
side ports they use (R193, R194, R233 to R236). A command begins when the order of its issuer lets it, and ends at its
DMA_TRANSFER_END. -/

namespace Sys2Proof.Machine

/-! ### Operands -/

/-- One end of a transfer: a global address, or a row of the M-tile's SRAM or of a scratchpad of its triad. -/
inductive DmaEnd where
  | mem (a : Nat)
  | sram (site row : Nat)
  deriving DecidableEq, Repr

/-- The end an operand word names, its argument resolved (Table 13.6). -/
def dmaEnd (site v : Nat) : DmaEnd :=
  let sp := bits v 62 2
  if sp = 2 then .sram site (v % 8192)
  else if sp = 3 then .sram (triadAt site (bits v 13 1)) (v % 8192)
  else .mem (v % 2 ^ 56)

/-- Byte b of the invocation record in an M-tile's rows 8,190 and 8,191 (Table 13.9). -/
def State.argByte (s : State) (site b : Nat) : Byte := tget hbmDefault s.grid.sram (sramKey site 8190 + b)

/-- An operand word with its argument resolved, and whether a poisoned row of the record was used. -/
def State.dmaArg (s : State) (site v : Nat) : Nat × Bool :=
  if bits v 62 2 = 1 then
    let o := 48 + 8 * bits v 56 3
    ((leNat ((List.range 8).map fun i => s.argByte site (o + i)) + v) % 2 ^ 56, s.rowMark site (8190 + o / 64))
  else (v, false)

/-- Fields of word 0 of a DMA instruction (R369), and its operand words. -/
def Ins.dKind (i : Ins) : Nat := i.f 0 4
def Ins.dWord (i : Ins) (k : Nat) : Nat := bits i.v (64 * (4 - k)) 64

/-- The arrival counter a DMA instruction names (R203); AC_SITE 3 names no site of the triad. -/
def Ins.dAc (i : Ins) (site : Nat) : Option Nat :=
  if i.f 24 1 = 1 ∧ i.f 25 2 < 3 then some (acKey (triadAt site (i.f 25 2)) (i.f 27 8) (i.f 35 2)) else none

/-! ### REFORMAT -/

/-- Fields of AUX0 of a REFORMAT (Table 13.7). -/
def rfMode (a : Nat) : Nat := bits a 62 2
def rfSrc (a : Nat) : Nat := bits a 58 4
def rfDst (a : Nat) : Nat := bits a 54 4
def rfCount (a : Nat) : Nat := 64 * (bits a 44 10 + 1)
def rfEnt (a : Nat) : Nat := bits a 31 13
def rfExp (a : Nat) : Nat := bits a 18 13
def rfChans (a : Nat) : Nat := bits a 11 7 + 1
def rfAct (a : Nat) : Bool := a.testBit 10

/-- Bits of an element of a REFORMAT format (Table 9.2; 0xF binary32). -/
def rfBits (f : Nat) : Nat := if f = 15 then 32 else fmtBits f

/-- Whether a mode and its formats are those of Table 11.8. -/
def rfLegal (a : Nat) : Bool :=
  if rfMode a = 0 then rfSrc a = 15 && (rfDst a = fmE4m3 || rfDst a = fmE5m2 || rfDst a = fmYq8 || rfDst a = fmYq4)
  else if rfMode a = 1 then rfSrc a = 15 && (rfDst a = fmE5m2 || rfDst a = fmYq8)
  else if rfMode a = 2 then (rfSrc a = fmE5m2 || rfSrc a = fmYq8) && rfDst a = 15
  else false

/-- Bytes read from SRC and written to DST. -/
def rfIn (a : Nat) : Nat := rfCount a * rfBits (rfSrc a) / 8
def rfOut (a : Nat) : Nat := rfCount a * rfBits (rfDst a) / 8
/-- Bytes of the entry table (R283) and of the exponent strip (R314). -/
def rfTab (a : Nat) : Nat := if rfMode a = 0 then 4 * rfChans a else 0
def rfStrip (a : Nat) : Nat := if rfMode a = 0 then 0 else rfCount a / 64

/-- Whether every address of a REFORMAT lies in the SRAM (R312). -/
def rfInside (src dst a : Nat) : Bool :=
  decide (64 * (src % 8192) + rfIn a ≤ 2 ^ 19) && decide (64 * (dst % 8192) + rfOut a ≤ 2 ^ 19) &&
  decide (64 * rfEnt a + rfTab a ≤ 2 ^ 19) && decide (64 * rfExp a + rfStrip a ≤ 2 ^ 19)

/-- Bytes of an M-tile's SRAM from a row on, and whether a row of them carries poison. -/
def State.mBytes (s : State) (site row n : Nat) : List Byte × Bool :=
  ((List.range n).map fun i => tget hbmDefault s.grid.sram (sramKey site row + i),
   (List.range (cdiv n 64)).any fun i => s.rowMark site (row + i))

/-- One element of QUANT_SHEET (R313): its code, and what it counts, |v − Z| and t. Assumption log 83 (DEDUCED). -/
def quantSheet (f : Nat) (act : Bool) (sv zv : Nat) (v : W32) : Nat × Option (FV × FV × Bool × Bool) :=
  if sv % 2 ^ 15 = 0 then (if isYq f then yqZero f else 0, none)
  else
    let d := fsub v (if act then bfWide zv else 0)
    let t := fdec (fdiv d (bfWide sv))
    let c := toCode f t
    (c, some (t, fdec d, saturates f 0 (yqTop f false) t, underflows f t c))

/-- The exponent of one block of QUANT_BLOCK (R314). -/
def blockExp (f : Nat) (vs : List FV) : Int × Bool :=
  let a := (vs.filter fvFin).foldl (fun m v => if fvLt m (fvAbs v) then fvAbs v else m) (.fin false 0 0)
  if fvZero a then (-128, false)
  else
    let e := leastExp a (pMax f) 400 (-200)
    (max (-128) (min 127 e), decide (127 < e))

/-- A block of QUANT_BLOCK: codes, exponent, whether it saturated, whether it holds an infinity or a NaN. -/
def quantBlock (f : Nat) (vs : List FV) : List Nat × Int × Bool × Bool :=
  let (e, sat) := blockExp f vs
  (vs.map fun v => toCode f (fvMul v (.fin false 1 (-e))), e, sat, vs.any fun v => !fvFin v)

/-- The bytes of a REFORMAT's destination and strip, its census counts by channel, its blocks that saturated and that
hold an infinity or a NaN. Assumption log 83 (DEDUCED). -/
def reformat (a : Nat) (src tab strip : List Byte) : List Byte × List Byte × List (Nat × (FV × FV × Bool × Bool)) × Nat × Nat :=
  let n := rfCount a
  let word (e : Nat) : W32 := BitVec.ofNat 32 (leAt src (4 * e) 4)
  if rfMode a = 0 then
    let es := (List.range n).map fun e =>
      let c := e % rfChans a
      (c, quantSheet (rfDst a) (rfAct a) (leAt tab (4 * c) 2) (leAt tab (4 * c + 2) 2) (word e))
    (packCodes (rfDst a) (es.map fun x => x.2.1), [], es.filterMap fun x => x.2.2.map fun y => (x.1, y), 0, 0)
  else if rfMode a = 1 then
    let bs := (List.range (n / 64)).map fun b =>
      quantBlock (rfDst a) ((List.range 64).map fun i => fdec (word (64 * b + i)))
    (packCodes (rfDst a) (bs.flatMap fun x => x.1), bs.map fun x => BitVec.ofNat 8 (unsgn 8 x.2.1), [],
     (bs.filter fun x => x.2.2.1).length, (bs.filter fun x => x.2.2.2).length)
  else
    ((List.range n).flatMap fun e =>
      let g := sgn 8 (leAt strip (e / 64) 1)
      leBytes 4 (fenc (fvMul (.fin false 1 g) (codeVal (rfSrc a) (unitElem (rfSrc a) e src)))).toNat, [], [], 0, 0)

/-- Counts a REFORMAT's elements in the census buffer of its M-tile, under the binding of its acceptance; a tile bound
anew since has its buffer flushed already, and the counts follow the flush. Assumption log 83 (DEDUCED). -/
def State.reformatCensus (s : State) (c : DmaCmd) (cs : List (Nat × (FV × FV × Bool × Bool))) : State :=
  let add (m : List (Nat × Census)) : List (Nat × Census) :=
    cs.foldl (fun m x => tmod (fun _ => {}) m x.1 fun k => k.count x.2.2.2.1 x.2.2.2.2 x.2.1 x.2.2.1) m
  match c.bind with
  | none => s
  | some (seq, ch) =>
    match ((s.run? c.run).bind fun r => r.tile? c.site).map fun (t : Tile) => t.bind with
    | some (some (q, b, _)) =>
      if q = seq ∧ b = ch then s.modTile c.run c.site fun t => { t with census := add t.census }
      else s.queueFlush c.run c.site seq ch ((add []).filter fun e => e.2 ≠ {}) none false
    | _ => s.queueFlush c.run c.site seq ch ((add []).filter fun e => e.2 ≠ {}) none false

/-! ### Order -/

/-- What a command touches: a region (0 the global space, 1 + site a tile's SRAM) and the bytes from lo to hi - 1. -/
def State.spanOf (s : State) (e : DmaEnd) (n : Nat) : Nat × Nat × Nat :=
  match e with
  | .sram site row => (1 + site, row * rowLen site, row * rowLen site + n)
  | .mem a =>
    if s.isOwn (gModule a) then
      match placeOf (gOff a) with
      | .site d r c o => (1 + siteOf d r c, o, o + n)
      | _ => (0, a, a + n)
    else (0, a, a + n)

/-- Bytes of an atomic of a DMA command (Table 13.7). -/
def DmaCmd.atomLen (c : DmaCmd) : Nat := if c.len ≤ 64 then 4 else 8

/-- The ends a command touches and the bytes at each. -/
def DmaCmd.touches (c : DmaCmd) : List (DmaEnd × Nat) :=
  let src := dmaEnd c.site c.src
  let dst := dmaEnd c.site c.dst
  if c.kind = 0 then [(src, c.len), (dst, c.len)]
  else if c.kind = 1 then
    [(src, rfIn c.aux0), (dst, rfOut c.aux0), (.sram c.site (rfEnt c.aux0), rfTab c.aux0),
     (.sram c.site (rfExp c.aux0), rfStrip c.aux0)]
  else if c.kind = 3 then
    [(src, c.len), (.mem (gAddr (bits c.aux0 44 12) (bits c.aux0 42 2 * 0x2400000000)), 0)]
  else if c.kind = 4 then [(src, 8), (dst, 8)]
  else if 5 ≤ c.kind ∧ c.kind ≤ 8 then [(dst, c.atomLen), (src, c.atomLen)]
  else if c.kind = 9 then [(src, 16), (dst, 0)]
  else if c.kind = 16 then [(.mem (c.dst % 2 ^ 56), 32)]
  else []

/-- Whether two commands overlap in a byte (R340). Assumption log 77 (DEDUCED). -/
def State.dmaOverlap (s : State) (a b : DmaCmd) : Bool :=
  a.touches.any fun x => b.touches.any fun y =>
    let (r, lo, hi) := s.spanOf x.1 x.2
    let (q, l2, h2) := s.spanOf y.1 y.2
    r = q && decide (lo < h2) && decide (l2 < hi)

/-- Whether a FENCE scope covers a target (Table 12.7). -/
def State.inScope (s : State) (site scope : Nat) (e : DmaEnd) : Bool :=
  let rack (m : Nat) : Bool :=
    decide (s.gf F.RIG_RACK_RACK_BASE ≤ m) && decide (m < s.gf F.RIG_RACK_RACK_BASE + s.gf F.RIG_RACK_RACK_COUNT)
  match e with
  | .sram _ _ => if scope = 3 then rack s.modnum else true
  | .mem a =>
    let own := s.isOwn (gModule a)
    if scope = 4 then true
    else if scope = 3 then rack (gModule a)
    else if scope = 2 then own
    else own && (match placeOf (gOff a) with
      | .hbm o => scope = 1 && hbmDie o = siteDie site
      | .site d r c _ => if scope = 1 then d = siteDie site else triadM (siteOf d r c) = triadM site
      | _ => false)

/-- Scope of a FENCE; reserved values are none. -/
def DmaCmd.scope (c : DmaCmd) : Option Nat := if c.kind = 2 ∧ c.aux0 % 8 < 5 then some (c.aux0 % 8) else none

/-- Whether a command accesses a target within a scope. -/
def State.accesses (s : State) (c : DmaCmd) (scope : Nat) : Bool := c.touches.any fun x => s.inScope c.site scope x.1

/-- Earlier commands of the same issuer still in the queue (R338). Assumption log 77 (DEDUCED). -/
def State.earlier (s : State) (c : DmaCmd) : List DmaCmd :=
  s.grid.dma.filter fun e => e.site = c.site && e.strand = c.strand && decide (e.id < c.id)

/-- Whether the order of its issuer lets a command begin (R340 to R342). Assumption log 77 (DEDUCED). -/
def State.dmaMayStart (s : State) (c : DmaCmd) : Bool :=
  let es := s.earlier c
  !es.any (fun e => e.acq || e.kind = 4) &&
  (!(c.rel || c.kind = 9) || es.isEmpty) &&
  !es.any (fun e => s.dmaOverlap c e) &&
  (match c.scope with
   | some k => !es.any (fun e => s.accesses e k)
   | none => true) &&
  !es.any (fun e => match e.scope with
    | some k => s.accesses c k
    | none => false)

/-! ### Beginning -/

/-- The C-die of a command, as a requester. -/
def DmaCmd.source (c : DmaCmd) : Src := .strand (Fin.ofNat 4 (siteDie c.site))

/-- Sets a command of the queues. -/
def State.setDma (s : State) (c : DmaCmd) : State :=
  s.modGrid fun g => { g with dma := g.dma.map fun x => if x.id = c.id then c else x }

/-- The issuer of a command's packets. -/
def DmaCmd.issuer (c : DmaCmd) : Issuer := .dma c.site c.id

/-- FLAGS of a command's packets: ACQ and REL (R341). -/
def DmaCmd.flags (c : DmaCmd) : Nat := b2n c.acq + 2 * b2n (c.rel || c.kind = 9)

/-- The check of R36 when a transfer begins, at the first and last byte of a local range: whether it is refused. -/
def State.probe (s : State) (src : Src) (a n : Nat) (isWrite : Bool) : Bool × State :=
  let one (s : State) (x : Nat) : Bool × State :=
    if isWrite then
      let (st, s1) := s.localWrite src x [] 0 false
      (st != stOk, s1)
    else
      let (st, _, _, s1) := s.localRead src x 0 false
      (st != stOk, s1)
  let (r, s1) := one s a
  if r then (true, s1) else one s1 (a + n - 1)

/-- 64-byte unit `u` of a tile's SRAM from a row on; none past its last row. -/
def State.sramUnit (s : State) (site row u : Nat) : List Byte × Bool :=
  if isM site then
    (if row + u < 8192 then (s.rowRead site (row + u), s.rowMark site (row + u)) else ([], true))
  else if row + 2 * u + 1 < 8192 then
    (s.rowRead site (row + 2 * u) ++ s.rowRead site (row + 2 * u + 1),
     s.rowMark site (row + 2 * u) || s.rowMark site (row + 2 * u + 1))
  else ([], true)

/-- The units that returned pieces of a range make; a unit with a byte that was not delivered has none. -/
def unitsOf (a n : Nat) (got : List (Nat × (List Byte × Nat))) : List (List Byte × Bool) :=
  let bytes := (pieces (n + 1) a n).flatMap fun (p : Nat × Nat) =>
    match got.find? fun (g : Nat × (List Byte × Nat)) => g.1 = p.1 with
    | some g => ((slice g.2.1 0 p.2).zipIdx).map fun (x : Byte × Nat) => (some x.1, g.2.2.testBit (x.2 / 64))
    | none => List.replicate p.2 (none, true)
  (cut 64 (n + 1) bytes).map fun (l : List (Option Byte × Bool)) =>
    if l.any fun x => x.1.isNone then ([], true) else (l.filterMap fun x => x.1, l.any fun x => x.2)

/-- Begins to read `n` bytes of an end: what is at hand is collected, what lies in another module is requested. -/
def State.fetchFrom (s : State) (c : DmaCmd) (e : DmaEnd) (n : Nat) : DmaCmd × State :=
  match e with
  | .sram site row =>
    ({ c with ready := true, data := (List.range (cdiv n 64)).map fun u =>
        let x := s.sramUnit site row u
        (x.1.take (n - 64 * u), x.2) }, s)
  | .mem a =>
    if s.isOwn (gModule a) then
      let (bad, s1) := s.probe c.source a n false
      if bad then ({ c with ready := true, bad := true, data := (List.range (cdiv n 64)).map fun _ => ([], true) }, s1)
      else
        let (got, s2) := (pieces (n + 1) a n).foldl (fun (acc : List (Nat × (List Byte × Nat)) × State) p =>
          let (st, d, pz, s') := acc.2.localRead c.source p.1 p.2 false
          (if st = stOk then acc.1 ++ [(p.1, (d, pz))] else acc.1, s')) ([], s1)
        ({ c with ready := true, data := unitsOf a n got }, s2)
    else
      let ps := pieces (n + 1) a n
      ({ c with out := c.out + ps.length },
       ps.foldl (fun s p => s.issue c.issuer (siteDie c.site) opRead p.1 p.2 0 c.flags []) s)

/-- One chunk of a REDUCE goes to its group's home (R349): the chunk's address fields. A refusal with REDUCE_BUSY is
counted and the chunk waits for its next sending (R351). -/
def State.sendChunk (s : State) (c : DmaCmd) (ad : Nat) : DmaCmd × State :=
  let bf := c.aux0.testBit 16
  let w := if bf then 2 else 4
  let j := ad % 2 ^ 18
  let units := (c.data.drop (j * w)).take w
  let pay := (units.flatMap (·.1)).take (64 * w)
  let pz := (units.zipIdx).foldl (fun m (x : (List Byte × Bool) × Nat) => if x.1.2 then m + 2 ^ x.2 else m) 0
  let slot := ((s.run? c.run).map (·.shard)).getD 0
  if s.isOwn (bits ad 44 12) then
    let (st, s1) := s.reduceArrive (bits ad 42 2) (bits ad 34 8) (bits ad 18 16) j (slot % 4096) bf pay pz
    if st = stRedBusy then ({ c with retry := c.retry ++ [(ad, s.now)] }, s1.rigCnt 12)
    else ({ c with bad := c.bad || st != stOk }, s1)
  else
    ({ c with out := c.out + 1 },
     s.issue c.issuer (siteDie c.site) opReduce ad pay.length (slot % 4096 + 4096 * b2n bf) (c.flags + 16 * pz) pay)

/-- A POLL whose word is read (R337): it ends on a match, or on bit 63. -/
def DmaCmd.pollSeen (c : DmaCmd) (w : Nat) (pz : Bool) : DmaCmd :=
  if (w &&& c.aux1) = (c.aux0 &&& c.aux1) ∨ w.testBit 63 then { c with ready := true, data := [(leBytes 8 w, pz)] } else c

/-- One read of a POLL. Assumption log 82 (DEDUCED). -/
def State.pollRead (s : State) (c : DmaCmd) : DmaCmd × State :=
  let c1 := { c with pollAt := s.now }
  let s0 := s.rigCnt 18
  match dmaEnd c.site c.src with
  | .mem a =>
    if s.isOwn (gModule a) then
      let (st, d, pz, s1) := s0.localRead c.source a 8 false
      if st = stOk then (c1.pollSeen (leNat d) (pz != 0), s1)
      else ({ c1 with ready := true, bad := true, data := [([], true)] }, s1)
    else ({ c1 with out := c.out + 1 }, s0.issue c.issuer (siteDie c.site) opRead a 8 0 (c.flags ||| 1) [])
  | .sram site row =>
    let (d, p) := s.sramUnit site row 0
    (c1.pollSeen (leAt d 0 8) p, s0)

/-- Opcode of an atomic command. -/
def DmaCmd.atomOp (c : DmaCmd) : Nat := c.kind - 2

/-- One atomic, local or not: the old value on success (R343, R344). Assumption log 82 (DEDUCED). -/
def State.dmaAtomic (s : State) (c : DmaCmd) (op a n operand compare : Nat) : DmaCmd × State :=
  if s.isOwn (gModule a) then
    let (st, d, s1) := s.atomicLocal c.source op a n operand compare false
    if st = stOk then ({ c with got := c.got ++ [(a, (d, 0))] }, s1) else ({ c with bad := true }, s1)
  else
    let pay := if op = opCas then leBytes n compare ++ leBytes n operand else leBytes n operand
    ({ c with out := c.out + 1 }, s.issue c.issuer (siteDie c.site) op a n 0 c.flags pay)

/-- A REFORMAT is performed (R312 to R315). -/
def State.beginReformat (s : State) (c : DmaCmd) : DmaCmd × State :=
  if !rfLegal c.aux0 || bits c.src 62 2 != 2 || bits c.dst 62 2 != 2 || !rfInside c.src c.dst c.aux0 then
    ({ c with ready := true, bad := true, data := [] }, s)
  else
    let (src, p) := s.mBytes c.site (c.src % 8192) (rfIn c.aux0)
    let (tab, p2) := s.mBytes c.site (rfEnt c.aux0) (rfTab c.aux0)
    let (strip, p3) := if rfMode c.aux0 = 2 then s.mBytes c.site (rfExp c.aux0) (rfStrip c.aux0) else ([], false)
    let (out, st, cs, sat, nonfin) := reformat c.aux0 src tab strip
    let pz := p || p2 || p3
    let s1 := if pz ∧ c.run = 0 then s.breach c.run ⟨c.site, c.strand, c.pc⟩ fcPoison else s
    let s2 := s1.reformatCensus c cs
    let s3 := (List.range nonfin).foldl (fun s _ => s.note F.QNT_EVENTS_NONFINITE_BLOCK (R.QNT_COUNT 10)) s2
    let s4 := (List.range sat).foldl (fun s _ => s.note F.QNT_EVENTS_BLOCK_SAT (R.QNT_COUNT 11)) s3
    ({ c with ready := true, strip := st, data := (Sys2Proof.Machine.cut 64 (out.length + 1) out).map fun u => (u, pz) }, s4)

/-- A command begins. -/
def State.beginDma (s : State) (c0 : DmaCmd) : DmaCmd × State :=
  let c := { c0 with started := true }
  let src := dmaEnd c.site c.src
  if c.kind = 0 then
    match dmaEnd c.site c.dst with
    | .mem a =>
      if s.isOwn (gModule a) then
        let (bad, s1) := s.probe c.source a c.len true
        if bad then ({ c with ready := true, bad := true, data := [] }, s1) else s1.fetchFrom c src c.len
      else s.fetchFrom c src c.len
    | .sram _ _ => s.fetchFrom c src c.len
  else if c.kind = 1 then s.beginReformat c
  else if c.kind = 2 then ({ c with ready := true, bad := c.scope.isNone }, s)
  else if c.kind = 3 then s.fetchFrom c src c.len
  else if c.kind = 4 then s.pollRead c
  else if c.kind ≤ 8 then
    match dmaEnd c.site c.dst with
    | .mem a => s.dmaAtomic c c.atomOp a c.atomLen (c.aux0 % 2 ^ (8 * c.atomLen)) (c.aux1 % 2 ^ (8 * c.atomLen))
    | .sram _ _ => ({ c with bad := true }, s)
  else if c.kind = 9 then s.fetchFrom c src 16
  else if c.kind = 16 then
    let a := c.dst % 2 ^ 56
    let (c1, s1) := s.dmaAtomic c opAdd a 8 c.src 0
    let (c2, s2) := s1.dmaAtomic c1 opAdd (a + 8) 8 c.aux0 0
    let (c3, s3) := s2.dmaAtomic c2 opAdd (a + 16) 8 c.aux1 0
    s3.dmaAtomic c3 opUmax (a + 24) 4 c.len 0
  else ({ c with ready := true, bad := true, data := [] }, s)

/-! ### Progress -/

/-- Operations of a command that have ended (R328, R351). -/
def DmaCmd.feed (c : DmaCmd) (now : Nat) (e : Ended) : DmaCmd :=
  let c1 := { c with out := c.out - 1 }
  if e.status = stOk then
    if c.kind = 4 ∧ !c.ready then c1.pollSeen (leAt e.data 0 8) (e.poison != 0)
    else { c1 with got := c1.got ++ [(e.addr % 2 ^ 56, (e.data, e.poison))] }
  else if c.kind = 3 ∧ e.status = stRedBusy then { c1 with retry := c1.retry ++ [(e.addr, now)] }
  else if c.kind = 4 ∧ !c.ready then { c1 with ready := true, bad := true, data := [([], true)] }
  else { c1 with bad := true }

/-- A command takes up what has ended for it. -/
def State.feedDma (s : State) (c : DmaCmd) : DmaCmd × State :=
  let mine := s.rig.ended.filter fun e => e.issuer == c.issuer
  let busy := if c.kind = 3 then (mine.filter fun e => e.status = stRedBusy).length else 0
  let s1 := { s with rig := { s.rig with ended := s.rig.ended.filter fun e => !(e.issuer == c.issuer) } }
  (mine.foldl (fun c e => c.feed s.now e) c, s1.addCtr 48 (R.RIG_COUNT 12) busy)

/-- The chunks of a REDUCE's vector. -/
def DmaCmd.chunks (c : DmaCmd) : Nat := cdiv c.len (64 * if c.aux0.testBit 16 then 2 else 4)

/-- A command's data after the path code errors of its units (R414). -/
def DmaCmd.pathTaint (c : DmaCmd) : DmaCmd :=
  if c.ready && !c.path.isEmpty then
    { c with data := c.data.zipIdx.map fun (x : (List Byte × Bool) × Nat) => (x.1.1, x.1.2 || c.path.contains x.2), path := [] }
  else c

/-- What a command that has all it read does next: a REDUCE sends its chunks, a DOORBELL its payload, an atomic hands
over the old value; data for another module are sent. -/
def State.pushDma (s : State) (c : DmaCmd) : DmaCmd × State :=
  if !c.started || c.pushed || c.out ≠ 0 then (c, s) else
  let c0 : DmaCmd := DmaCmd.pathTaint <|
    if c.ready then c
    else if c.kind = 0 ∨ c.kind = 3 ∨ c.kind = 9 then
      match dmaEnd c.site c.src with
      | .mem a => { c with ready := true, data := unitsOf a (if c.kind = 9 then 16 else c.len) c.got }
      | .sram _ _ => c
    else if 5 ≤ c.kind ∧ c.kind ≤ 8 then
      { c with ready := true, data := c.got.map fun g => (g.2.1, false) }
    else if c.kind = 16 then { c with ready := true }
    else c
  if !c0.ready then (c0, s)
  else if c0.kind = 3 then
    if c0.data.any fun u => u.1.isEmpty then ({ c0 with pushed := true, bad := true }, s)
    else (List.range c0.chunks).foldl (fun (x : DmaCmd × State) j =>
      x.2.sendChunk x.1 (bits c0.aux0 18 38 * 2 ^ 18 + j)) ({ c0 with pushed := true }, s)
  else if c0.kind = 9 then
    match dmaEnd c.site c.dst, c0.data with
    | .mem a, [(d, pz)] =>
      if d.isEmpty then ({ c0 with pushed := true, bad := true }, s)
      else if s.isOwn (gModule a) then
        let (st, s1) := s.ringDoorbell (a % 2 ^ 16) s.modnum (c.aux0 % 2 ^ 32) d pz
        ({ c0 with pushed := true, bad := c0.bad || st != stOk }, s1)
      else
        ({ c0 with pushed := true, out := 1 },
         s.issue c.issuer (siteDie c.site) opDoorbell (a &&& 0xFFF0000000FFFF) 16 (c.aux0 % 2 ^ 32) (c.flags + 16 * b2n pz) d)
    | _, _ => ({ c0 with pushed := true, bad := true }, s)
  else
    match dmaEnd c.site c0.dest with
    | .mem a =>
      if s.isOwn (gModule a) || c0.data.isEmpty then ({ c0 with pushed := true }, s)
      else
        let bytes := c0.data.flatMap fun u => if u.1.isEmpty then List.replicate 64 0 else u.1
        let ps := pieces (bytes.length + 1) a bytes.length
        let marks (p : Nat × Nat) : Nat := (List.range (cdiv p.2 64)).foldl (fun m k =>
          let lo := (p.1 - a + 64 * k) / 64
          let hi := (p.1 - a + min p.2 (64 * k + 64) - 1) / 64
          if (List.range (hi + 1 - lo)).any fun i => (c0.data.getD (lo + i) ([], true)).2 then m + 2 ^ k else m) 0
        ({ c0 with pushed := true, out := ps.length },
         ps.foldl (fun s p => s.issue c.issuer (siteDie c.site) opWrite p.1 p.2 0 (c.flags + 16 * marks p)
           (slice bytes (p.1 - a) p.2)) s)
    | .sram _ _ => ({ c0 with pushed := true }, s)

/-- One command of the queues goes as far as it can. -/
def State.dmaStep (s : State) (id : Nat) : State :=
  match s.grid.dma.find? fun c => c.id = id with
  | none => s
  | some c =>
    let (c1, s1) := if !c.started && s.dmaMayStart c then s.beginDma c else (c, s)
    let (c2, s2) := s1.feedDma c1
    let (c3, s3) := s2.pushDma c2
    s3.setDma c3

/-- Every command goes as far as it can, in order of issue. -/
def State.dmaPump (s : State) : State := s.grid.dma.foldl (fun s c => s.dmaStep c.id) s

/-! ### Issue -/

/-- A DMA instruction issues: its command joins its M-tile's queue, or faults with DMA_QUEUE_FULL (R202). `path` lists
path code errors of its units (R414). -/
def State.acceptDma (s : State) (i : Issue) (path : List (BitVec 18 × Bool) := []) : State :=
  if s.dmaFree i.site = 0 then s.bad i fcDmaFull else
  let n := i.ins
  let (src, p) := s.dmaArg i.site (n.dWord 1)
  let (dst, q) := s.dmaArg i.site (n.dWord 2)
  let kind := n.dKind
  let c : DmaCmd :=
    { id := s.grid.nextDma, site := i.site, strand := i.by_.strand, pc := i.by_.pc, kind := kind
      acq := n.f 4 1 = 1, rel := n.f 5 1 = 1, len := 64 * (n.f 6 18 + 1), src := src, dst := dst
      dest := if 5 ≤ kind ∧ kind ≤ 8 then src else dst
      aux0 := n.dWord 3, aux1 := n.dWord 4, ac := n.dAc i.site, run := i.key
      bind := if kind = 1 then i.tile.bind.map fun b => (b.1, b.2.1) else none
      path := (path.filter fun e => e.2).map fun e => e.1.toNat }
  let s1 := if p || q then s.bad i fcPoison else s
  ((s1.pathErrs (path.map fun e => e.2)).modGrid fun g => { g with dma := g.dma ++ [c], nextDma := g.nextDma + 1 }).dmaPump

/-- A DMA command word issues when it has the KIND a command names; reserved KINDs are accepted with COPY and end in
error (Table 13.7). -/
def State.issueDma (s : State) (site strand kind : Nat) (path : List (BitVec 18 × Bool) := []) : State :=
  match s.issuing site strand with
  | some i =>
    if i.ins.op = ocDma ∧ (if 9 < i.ins.dKind then 0 else i.ins.dKind) ≠ kind then s
    else s.issueOp site strand ocDma (fun i => isM i.site) fun i s => s.acceptDma i path
  | none => s

/-- The error a DMA instruction about to issue meets in the first unit of its source, when that lies in the module's own
HBM (R243, R246). Assumption log 85 (DEDUCED). -/
def State.dmaSrcErr (s : State) (site strand cls : Nat) : State :=
  match s.issuing site strand with
  | none => s
  | some i =>
    match dmaEnd site (s.dmaArg i.site (i.ins.dWord 1)).1 with
    | .sram _ _ => s
    | .mem a =>
      if !(s.isOwn (gModule a)) || i.ins.op ≠ ocDma then s else
      match placeOf (gOff a) with
      | .hbm off => s.memErr off cls
      | _ => s

/-- DMA_COPY (R202, Table 13.7). `err` is what the error codes meet in its source (State.memErr); `path` lists path code
errors of its 64-byte units and whether each is uncorrectable (R414). Assumption log 85 (DEDUCED), 137 (DEDUCED). -/
def execDmaCopy (die : Fin 4) (row : Fin 32) (col : Fin 48) (strand : Byte) (err : Fin 5) (path : List (BitVec 18 × Bool))
    (s : State) : Host.Outcome State Fault Refusal :=
  doneG ((s.dmaSrcErr (siteN die row col) strand.toNat err.val).issueDma (siteN die row col) strand.toNat 0 path)
/-- DMA_REFORMAT (R312). -/
def execDmaReformat (die : Fin 4) (row : Fin 32) (col : Fin 48) (strand : Byte) (s : State) : Host.Outcome State Fault Refusal :=
  doneG (s.issueDma (siteN die row col) strand.toNat 1)
/-- DMA_FENCE (R342). -/
def execDmaFence (die : Fin 4) (row : Fin 32) (col : Fin 48) (strand : Byte) (s : State) : Host.Outcome State Fault Refusal :=
  doneG (s.issueDma (siteN die row col) strand.toNat 2)
/-- DMA_REDUCE (R349). -/
def execDmaReduce (die : Fin 4) (row : Fin 32) (col : Fin 48) (strand : Byte) (s : State) : Host.Outcome State Fault Refusal :=
  doneG (s.issueDma (siteN die row col) strand.toNat 3)
/-- DMA_POLL (R337). -/
def execDmaPoll (die : Fin 4) (row : Fin 32) (col : Fin 48) (strand : Byte) (s : State) : Host.Outcome State Fault Refusal :=
  doneG (s.issueDma (siteN die row col) strand.toNat 4)
/-- DMA_ATOMIC_ADD (R343). -/
def execDmaAtomicAdd (die : Fin 4) (row : Fin 32) (col : Fin 48) (strand : Byte) (s : State) :
    Host.Outcome State Fault Refusal := doneG (s.issueDma (siteN die row col) strand.toNat 5)
/-- DMA_ATOMIC_UMAX (R343). -/
def execDmaAtomicUmax (die : Fin 4) (row : Fin 32) (col : Fin 48) (strand : Byte) (s : State) :
    Host.Outcome State Fault Refusal := doneG (s.issueDma (siteN die row col) strand.toNat 6)
/-- DMA_ATOMIC_SMAX (R343). -/
def execDmaAtomicSmax (die : Fin 4) (row : Fin 32) (col : Fin 48) (strand : Byte) (s : State) :
    Host.Outcome State Fault Refusal := doneG (s.issueDma (siteN die row col) strand.toNat 7)
/-- DMA_ATOMIC_CAS (R343). -/
def execDmaAtomicCas (die : Fin 4) (row : Fin 32) (col : Fin 48) (strand : Byte) (s : State) :
    Host.Outcome State Fault Refusal := doneG (s.issueDma (siteN die row col) strand.toNat 8)
/-- DMA_DOORBELL (R346). -/
def execDmaDoorbell (die : Fin 4) (row : Fin 32) (col : Fin 48) (strand : Byte) (s : State) :
    Host.Outcome State Fault Refusal := doneG (s.issueDma (siteN die row col) strand.toNat 9)

/-! ### Side ports -/

/-- The row unit u of a transfer begins at. -/
def unitRow (site row u : Nat) : Nat := row + (if isM site then u else 2 * u)

/-- One unit written through a side port or to an M-tile's SRAM; a unit that was not delivered only marks its rows. -/
def State.unitPerform (s : State) (site row : Nat) (u : List Byte × Bool) : State :=
  if u.1.isEmpty then
    ((if isM site then [row] else [row, row + 1]).foldl (fun s r => if r < 8192 then s.markRow site r true else s)
      (s.notePoison site (sramKind site) row))
  else s.sidePerform site row u.1 (2 ^ (2 * u.1.length) - 1) u.2

/-- The next unit of a transfer is offered to the side port of its site (R235, R236). Assumption log 72 (DEDUCED). -/
def State.offerUnit (s : State) (c : DmaCmd) (site row : Nat) : State :=
  let s0 := s.eraseDue site
  match c.data[c.offered]? with
  | none => s0
  | some u =>
    let r := unitRow site row c.offered
    if s0.downBanks site ≠ 0 then
      (s0.lateWrite site r 0).setDma { c with offered := c.offered + 1, bad := true }
    else
      (s0.modGrid fun g => { g with side := g.side ++ [⟨site, r, u.1, u.2, c.id⟩] }).setDma { c with offered := c.offered + 1 }

/-- The oldest accepted write at a site is performed. -/
def State.performSide (s : State) (site : Nat) : State :=
  match s.grid.side.find? fun w => w.site = site with
  | none => s
  | some w => (s.modGrid fun g => { g with side := g.side.erase w }).unitPerform site w.row (w.data, w.poison)

/-- The command whose data a site's side port takes next. Assumption log 79 (DEDUCED). -/
def State.feeding (s : State) (site : Nat) : Option DmaCmd :=
  s.grid.dma.find? fun c => c.ready && decide (c.offered < c.data.length) && (match dmaEnd c.site c.dest with
    | .sram st _ => st = site
    | .mem _ => false)

/-- A command's data after the row of a site carried poison into them. -/
def DmaCmd.taint (c : DmaCmd) (site row : Nat) : DmaCmd :=
  match dmaEnd c.site c.src with
  | .sram st r =>
    if st = site ∧ c.ready ∧ c.kind ≠ 1 ∧ r ≤ row then
      { c with data := (c.data.zipIdx).map fun (x : (List Byte × Bool) × Nat) =>
          (x.1.1, x.1.2 || x.2 = (row - r) / (if isM site then 1 else 2)) }
    else c
  | .mem _ => c

/-- An error met by a side-port or DMA read of a row: poison reaches the units read from it. -/
def State.readErr (s : State) (site row cls : Nat) : State :=
  if isM site ∧ cls = 2 then s.becalm site row
  else
    let s1 := s.meetErr site (sramKind site) row cls
    if cls < 2 then s1 else s1.modGrid fun g => { g with dma := g.dma.map fun c => c.taint site row }

/-- SIDE_PORT_ACCESS (R194, R233 to R236): in a bank cycle that the schedule leaves free, a site's port accepts the next
unit of a transfer (phase 0), performs the oldest accepted one (1), or reads a row and meets an error of a class (2).
Assumption log 79 (DEDUCED). -/
def execSidePortAccess (die : Fin 4) (row : Fin 32) (col : Fin 48) (phase : Fin 3) (r : BitVec 13) (err : Fin 4)
    (s : State) : Host.Outcome State Fault Refusal :=
  let site := siteN die row col
  doneG (
    if phase = 0 then
      match s.feeding site with
      | none => s
      | some c => (match dmaEnd c.site c.dest with
          | .sram _ rw => s.offerUnit c site rw
          | .mem _ => s)
    else if phase = 1 then s.performSide site
    else s.readErr site r.toNat err.val)

/-! ### Ends -/

/-- Whether a command may end: all it sent is answered. -/
def DmaCmd.complete (c : DmaCmd) : Bool := c.started && c.ready && c.pushed && c.out = 0 && c.retry.isEmpty

/-- Offers and performs what is left of a transfer to tile SRAM. Assumption log 81 (DEDUCED). -/
def finishUnits (id site row : Nat) : Nat → State → State
  | 0, s => s
  | fuel + 1, s =>
    if s.grid.side.any fun w => w.xfer = id then finishUnits id site row fuel (s.performSide site)
    else match s.grid.dma.find? fun c => c.id = id with
      | some c => if c.offered < c.data.length then finishUnits id site row fuel (s.offerUnit c site row) else s
      | none => s

/-- The data of a command reach its destination on the module. A unit not delivered leaves its bytes as they were, with
poison (R204). Assumption log 81 (DEDUCED). -/
def State.dmaDeliver (s : State) (c : DmaCmd) : State :=
  match dmaEnd c.site c.dest with
  | .sram site row => finishUnits c.id site row (2 * c.data.length + s.grid.side.length + 2) s
  | .mem a =>
    if !s.isOwn (gModule a) then s else
      (c.data.zipIdx).foldl (fun s (x : (List Byte × Bool) × Nat) =>
        let at_ := a + 64 * x.2
        if x.1.1.isEmpty then
          match placeOf (gOff at_) with
          | .hbm off => { s with hbmPoison := poisonAfter s.hbmPoison off 64 1 }
          | _ => (s.localWrite c.source at_ (List.replicate 64 0) 1 false).2
        else (s.localWrite c.source at_ x.1.1 (b2n x.1.2) false).2) s

/-- A POLL of a reproducible plan that ended on a DONE word with bit 63 set ends its invocation (Table 13.11).
Assumption log 84 (DEDUCED). -/
def State.roundFailed (s : State) (c : DmaCmd) : State :=
  match c.data with
  | [(d, _)] =>
    if c.kind = 4 ∧ (leAt d 0 8).testBit 63 ∧ ((s.run? c.run).map (·.reproducible)).getD false = true then
      (s.stopRun c.run).modRun c.run fun r => { r with roundFailed := true }
    else s
  | _ => s

/-- A census flush loses a command (R304, R305). -/
def State.flushStep (s : State) (c : DmaCmd) : State :=
  match c.flush with
  | none => s
  | some k =>
    match tfind k s.grid.flushes with
    | none => s
    | some f =>
      let s1 := s.modGrid fun g => { g with flushes := tins k { f with left := f.left - 1 } g.flushes }
      if c.bad then (s1.modGrid fun g => { g with lost := g.lost ||| 2 ^ f.seq }).raise F.QNT_EVENTS_CENSUS_ERR else s1

/-- A command ends: its data are delivered, its counter increments once, and it leaves its queue (R204).
Assumption log 78 (DEDUCED). -/
def State.endDma (s : State) (c : DmaCmd) : State :=
  let s1 := s.dmaDeliver c
  let c1 := (s1.grid.dma.find? fun x => x.id = c.id).getD c
  let s2 := if c1.strip.isEmpty then s1 else
    (List.range (cdiv c1.strip.length 64)).foldl (fun s i =>
      let d := (c1.strip.drop (64 * i)).take 64
      s.sidePerform c.site (rfExp c.aux0 + i) d (2 ^ (2 * d.length) - 1) (c1.data.any (·.2))) s1
  let s3 := match c.ac with
    | some k => s2.acAdd k 1
    | none => s2
  let s4 := s3.modGrid fun g => { g with dma := g.dma.filter fun x => x.id != c.id }
  ((s4.flushStep c1).roundFailed c1).dmaPump

/-- DMA_TRANSFER_END (R204). Assumption log 78 (DEDUCED). -/
def execDmaTransferEnd (cmd : Nat) (s : State) : Host.Outcome State Fault Refusal :=
  let s0 := s.dmaPump
  match s0.grid.dma.find? fun c => c.id = cmd with
  | none => doneG s0
  | some c => doneG (if c.complete then s0.endDma c else s0)

/-- POLL_READ (R337): POLL_INTERVAL CK_MEM cycles after its last read a POLL issues the next. -/
def execPollRead (cmd : Nat) (s : State) : Host.Outcome State Fault Refusal :=
  match s.grid.dma.find? fun c => c.id = cmd with
  | none => done s
  | some c =>
    if c.kind ≠ 4 ∨ !c.started ∨ c.ready ∨ c.out ≠ 0 then done s else
      let s1 := s.advanceTo (c.pollAt + 4 * max 1 (s.gf F.RIG_GAPS_POLL_INTERVAL))
      let (c1, s2) := s1.pollRead c
      doneG (s2.setDma c1).dmaPump

/-- RED_RETRY (R351): RED_RETRY_GAP CK_MEM cycles after its refusal a chunk is sent again.
Assumption log 84 (DEDUCED). -/
def execRedRetry (cmd : Nat) (s : State) : Host.Outcome State Fault Refusal :=
  match s.grid.dma.find? fun c => c.id = cmd with
  | none => done s
  | some c =>
    match c.retry with
    | [] => done s
    | (ad, at_) :: rest =>
      let s1 := s.advanceTo (at_ + 4 * max 1 (s.gf F.RIG_GAPS_RED_RETRY_GAP))
      let (c1, s2) := s1.sendChunk { c with retry := rest } ad
      doneG (s2.setDma c1).dmaPump

end Sys2Proof.Machine
end

