-- ==== Sys2Proof/Machine/Seq.lean ====
section
/-! DEFINITION. Training sequences (R300 to R311, R316): the tensor directory and the census, the verdict of a CLOSE, what
an OPEN writes, and ENABLE. `ext` holds what reads of other modules returned, by address; a read without an entry ended
in an error. -/

namespace Sys2Proof.Machine

/-- A read by the QNT engine: none when it ends in an error or returns poison. -/
def State.qntRead (s : State) (ext : List (Nat × List Byte)) (a n : Nat) : Option (List Byte) :=
  let a := a % 2 ^ 56
  if s.isOwn (gModule a) then
    match placeOf (gOff a) with
    | .hbm off => if s.hbmPoisoned off n then none else some (s.hbmRead off n)
    | _ => none
  else (ext.find? fun e => e.1 = a).map fun e => slice e.2 0 n

/-- A write by the QNT engine; one that is refused on the module marks the sequence (R309). -/
def State.qntWrite (s : State) (seq a : Nat) (d : List Byte) : State :=
  let a := a % 2 ^ 56
  if s.isOwn (gModule a) then
    let (st, s1) := s.localWrite .mgmt a d 0 false
    if st = stOk then s1
    else (s1.raise F.QNT_EVENTS_CENSUS_ERR).modGrid fun g => { g with openErr := g.openErr ||| 2 ^ seq }
  else s.issue (.qnt seq) 0 opWrite a d.length 0 0 d

/-- Writes of the QNT engine to other modules that have ended: an error marks its sequence (R309). -/
def State.qntPump (s : State) : State :=
  let mine := s.rig.ended.filterMap fun e => match e.issuer with
    | .qnt q => some (q, e.status)
    | _ => none
  let s1 := { s with rig := { s.rig with ended := s.rig.ended.filter fun e => match e.issuer with
    | .qnt _ => false
    | _ => true } }
  mine.foldl (fun s x =>
    if x.2 = stOk then s
    else (s.raise F.QNT_EVENTS_CENSUS_ERR).modGrid fun g => { g with openErr := g.openErr ||| 2 ^ x.1 }) s1

/-! ### Directory and census -/

/-- One directory entry (Table 11.2). -/
structure Tensor where
  first : Nat
  n : Nat
  satAlarm : Nat
  underAlarm : Nat
  satTarget : Nat
  underTarget : Nat
  replay : Bool
  adapt : Bool
  fmt : Nat
  floorExp : Int
  master : Nat
  sheet : Nat
  rtab : Nat
  deriving DecidableEq, Repr

/-- A threshold that acts as `d` when 0. -/
def orElse (v d : Nat) : Nat := if v = 0 then d else v

/-- The entry of 64 bytes; none when it breaks Table 11.2. -/
def tensorOf (l : List Byte) : Option Tensor :=
  let first := leAt l 0 4
  let n := leAt l 4 4
  let fl := leAt l 18 1
  if n = 0 || decide (2 ^ 24 < n) || decide (2 ^ 24 < first + n) || leAt l 16 1 / 4 != 0 ||
      !(1 ≤ leAt l 17 1 && leAt l 17 1 ≤ 4) || fl = 0x80 || fl = 0x81 || (slice l 19 5).any (· != 0) ||
      (slice l 48 16).any (· != 0) then none
  else some
    { first := first, n := n, satAlarm := orElse (leAt l 8 2) 64, underAlarm := orElse (leAt l 10 2) 4096
      satTarget := orElse (leAt l 12 2) 16, underTarget := orElse (leAt l 14 2) 1024
      replay := (leAt l 16 1).testBit 0, adapt := (leAt l 16 1).testBit 1, fmt := leAt l 17 1
      floorExp := sgn 8 fl, master := leAt l 24 8, sheet := leAt l 32 8, rtab := leAt l 40 8 }

/-- Directory entry k of a sequence. -/
def State.tensor (s : State) (ext : List (Nat × List Byte)) (q k : Nat) : Option Tensor :=
  (s.qntRead ext (s.gf (F.SEQ_DIR_ADDRESS q) / 64 * 64 + 64 * k) 64).bind tensorOf

/-- Address of a census record (R300). -/
def State.recAddr (s : State) (q n : Nat) : Nat := s.gf (F.SEQ_CENSUS_ADDRESS q) / 32 * 32 + 32 * n

/-- A census record (Table 11.3). -/
def State.censusRec (s : State) (ext : List (Nat × List Byte)) (q n : Nat) : Option Census :=
  (s.qntRead ext (s.recAddr q n) 32).map fun l => ⟨leAt l 0 8, leAt l 8 8, leAt l 16 8, leAt l 24 4⟩

/-- The sums of a tensor's records; none when a read failed. -/
def State.sums (s : State) (ext : List (Nat × List Byte)) (q : Nat) (t : Tensor) : Option (Nat × Nat × Nat) :=
  (List.range t.n).foldl (fun a c =>
    match a, s.censusRec ext q (t.first + c) with
    | some (e, x, u), some r => some (e + r.elems, x + r.sat, u + r.under)
    | _, _ => none) (some (0, 0, 0))

/-- Far off by saturation and by underflow (R307). -/
def farOff (t : Tensor) (sums : Nat × Nat × Nat) : Bool × Bool :=
  let (e, x, u) := sums
  (decide (e * t.satAlarm < x * 65536), decide (e * t.underAlarm < u * 65536))

/-! ### CLOSE -/

/-- Every tensor of a sequence with its sums; none when a read failed or an entry is bad.
Assumption log 86 (DEDUCED). -/
def State.tensors (s : State) (ext : List (Nat × List Byte)) (q : Nat) : Option (List (Tensor × (Nat × Nat × Nat))) :=
  (List.range (s.gf (F.SEQ_CFG_TENSORS q))).foldl (fun a k =>
    match a, s.tensor ext q k with
    | some l, some t => (s.sums ext q t).map fun m => l ++ [(t, m)]
    | _, _ => none) (some [])

/-- Sets OPEN of a sequence. -/
def State.setOpen (s : State) (q : Nat) (o : Bool) : State :=
  let v := s.gf F.QNT_STATUS_OPEN
  s.sf F.QNT_STATUS_OPEN (if o then v ||| 2 ^ q else v &&& (0xFF ^^^ 2 ^ q))

/-- Whether a sequence is open. -/
def State.isOpen (s : State) (q : Nat) : Bool := (s.gf F.QNT_STATUS_OPEN).testBit q

/-- VERDICT encodings (Table 11.5). -/
abbrev vdAccept : Nat := 1
abbrev vdClipped : Nat := 2
abbrev vdReplay : Nat := 3
abbrev vdFailed : Nat := 4

/-- The CLOSE of an open sequence (R308). Assumption log 86 (DEDUCED). -/
def State.doClose (s : State) (ext : List (Nat × List Byte)) (q : Nat) : State :=
  let s0 := (s.setOpen q false).cnt (R.QNT_COUNT 0)
  let marked := s.grid.lost.testBit q || s.grid.openErr.testBit q
  let s1 := s0.modGrid fun g => { g with openErr := g.openErr &&& (0xFF ^^^ 2 ^ q) }
  match if marked then none else s.tensors ext q with
  | none => s1.sf (F.SEQ_VERDICT_VERDICT q) vdFailed
  | some ts =>
    let far := (ts.zipIdx.map fun (x : (Tensor × (Nat × Nat × Nat)) × Nat) =>
      (x.2, x.1.1, farOff x.1.1 x.1.2)).filter fun x => x.2.2.1 || x.2.2.2
    let replays := s.gf (F.SEQ_VERDICT_REPLAYS q)
    let step := s.gf (F.SEQ_STEP_STEP q)
    let wants := far.any fun x => x.2.1.replay
    let s2 := (s1.sf (F.SEQ_VERDICT_FAR_TENSORS q) (min far.length 0xFFFF)).addCtr 48 (R.QNT_COUNT 5) far.length
    let s3 := match far with
      | [] => s2
      | (k, _, sat, under) :: _ =>
        (if s2.flag F.QNT_EVENTS_SCALE_ALARM then s2
         else s2.wrN R.QNT_ALARM_REC ((b2n sat + 2 * b2n under) * 2 ^ 62 + q * 2 ^ 56 + k % 2 ^ 16 * 2 ^ 40 + step)).raise
           F.QNT_EVENTS_SCALE_ALARM
    let accept (s : State) (v c : Nat) : State :=
      (((s.sf (F.SEQ_VERDICT_VERDICT q) v).sf (F.SEQ_VERDICT_REPLAYS q) 0).sf (F.SEQ_STEP_STEP q) ((step + 1) % 2 ^ 40)).cnt
        (R.QNT_COUNT c)
    if far.isEmpty then accept s3 vdAccept 1
    else if wants && decide (replays < s.gf (F.SEQ_CFG_MAX_REPLAY q)) then
      ((s3.sf (F.SEQ_VERDICT_VERDICT q) vdReplay).sf (F.SEQ_VERDICT_REPLAYS q) (replays + 1)).cnt (R.QNT_COUNT 3)
    else
      let s4 := if wants then s3.note F.QNT_EVENTS_REPLAY_EXHAUSTED (R.QNT_COUNT 4) else s3
      accept s4 vdClipped 2

/-! ### OPEN -/

/-- 2^e as binary32, for −126 ≤ e ≤ 127. -/
def pow2 (e : Int) : W32 := fenc (.fin false 1 e)

/-- What an OPEN makes of one channel's master (R309): the new value, whether it was replaced, and the step taken (0 none,
1 jump, 2 up, 3 down). Assumption log 87 (DEDUCED), 140 (DESIGN CHOICE). -/
def adaptScale (t : Tensor) (far : Bool) (up down : W32) (r : Census) (m : W32) : W32 × Bool × Nat :=
  let floor := pow2 t.floorExp
  let bad := !isFin m || fle m 0
  let s0 := if bad then floor else m
  let (s1, k) : W32 × Nat :=
    if !t.adapt || r.elems = 0 then (s0, 0)
    else if far then
      (if r.amax = 0 then (s0, 0)
       else (fenc (.fin false 1 (leastExp (fdec (BitVec.ofNat 32 r.amax)) (pMax t.fmt) 400 (-200))), 1))
    else if r.elems * t.satTarget < r.sat * 65536 then (fmul s0 up, 2)
    else if r.elems * t.underTarget < r.under * 65536 then (fmul s0 down, 3)
    else (s0, 0)
  let s2 := if isNan s1 then Config.nanScale floor else if flt s1 floor then floor else s1
  (if flt (pow2 127) s2 then pow2 127 else s2, bad, k)

/-- One channel of an OPEN. -/
def State.openChannel (s : State) (ext : List (Nat × List Byte)) (q : Nat) (t : Tensor) (far : Bool) (c : Nat) : State :=
  match s.censusRec ext q (t.first + c), s.qntRead ext (t.master + 4 * c) 4 with
  | some r, some m =>
    let (v, bad, k) := adaptScale t far (BitVec.ofNat 32 (s.gf (F.SEQ_UP_FACTOR q)))
      (BitVec.ofNat 32 (s.gf (F.SEQ_DOWN_FACTOR q))) r (BitVec.ofNat 32 (leNat m))
    let b := bfEnc (fdec v)
    let s0 := if bad then s.note F.QNT_EVENTS_BAD_MASTER (R.QNT_COUNT 9) else s
    let s1 := if k = 0 then s0 else s0.cnt (R.QNT_COUNT (5 + k))
    let s2 := (s1.qntWrite q (t.master + 4 * c) (leBytes 4 v.toNat)).qntWrite q (t.sheet + 4 * c) (leBytes 2 b)
    let s3 := if t.rtab = 0 then s2
      else s2.qntWrite q (t.rtab + 16 * c + 8) (leBytes 4 (fdiv (pow2 0) (bfWide b)).toNat)
    s3.qntWrite q (s.recAddr q (t.first + c)) (List.replicate 32 0)
  | _, _ => s

/-- One tensor of an OPEN; after FAILED only its records are zeroed. Assumption log 87 (DEDUCED). -/
def State.openTensor (s : State) (ext : List (Nat × List Byte)) (q k : Nat) : State :=
  match s.tensor ext q k with
  | none => s
  | some t =>
    if s.gf (F.SEQ_VERDICT_VERDICT q) = vdFailed then
      (List.range t.n).foldl (fun s c => s.qntWrite q (s.recAddr q (t.first + c)) (List.replicate 32 0)) s
    else
      match s.sums ext q t with
      | none => s
      | some m =>
        let f := farOff t m
        (List.range t.n).foldl (fun s c => s.openChannel ext q t (f.1 || f.2) c) s

/-- Opens a sequence without the writes of R309 (R373). -/
def State.openPlain (s : State) (q : Nat) : State :=
  (s.setOpen q true).modGrid fun g => { g with lost := g.lost &&& (0xFF ^^^ 2 ^ q) }

/-- The OPEN of a closed sequence (R309). Assumption log 86 (DEDUCED). -/
def State.doOpen (s : State) (ext : List (Nat × List Byte)) (q : Nat) : State :=
  ((List.range (s.gf (F.SEQ_CFG_TENSORS q))).foldl (fun s k => s.openTensor ext q k) s).openPlain q

/-! ### Operations -/

/-- BUSY follows the operations waiting. -/
def State.syncSeq (s : State) : State :=
  s.sf F.QNT_STATUS_BUSY (s.grid.seqOps.foldl (fun m o => m ||| 2 ^ o.1) 0)

/-- Issues an OPEN or CLOSE (R306). -/
def State.issueSeq (s : State) (q : Nat) (isOpen : Bool) : State :=
  (s.modGrid fun g => { g with seqOps := g.seqOps ++ [(q, isOpen)] }).syncSeq

/-- ENABLE of a sequence becomes 0. -/
def State.seqOff (s : State) (q : Nat) : State :=
  ((s.sf (F.SEQ_CFG_ENABLE q) 0).setOpen q false).modGrid fun g => { g with disabling := g.disabling &&& (0xFF ^^^ 2 ^ q) }

/-- Whether an invocation that counts into a sequence, or a flush of it, is still to complete (R306). -/
def State.seqInUse (s : State) (q : Nat) : Bool :=
  (match s.run? 0 with
   | some r => !r.isOver && r.seqMask.testBit q
   | none => false) || s.grid.flushes.any fun e => e.2.seq = q && decide (0 < e.2.left)

/-- The operation at the front, when it is the one named and may start, is performed (R306). -/
def State.runSeq (s : State) (ext : List (Nat × List Byte)) (q : Nat) (isOpen : Bool) : State :=
  match s.grid.seqOps with
  | [] => s
  | o :: rest =>
    if o ≠ (q, isOpen) then s
    else if !isOpen && s.seqInUse q then s
    else
      let s1 := if !s.flag (F.SEQ_CFG_ENABLE q) || s.isOpen q = isOpen then s.raise F.QNT_EVENTS_SEQ_ORDER
        else if isOpen then s.doOpen ext q else s.doClose ext q
      let s2 := (s1.modGrid fun g => { g with seqOps := rest }).syncSeq
      if s2.grid.disabling.testBit q && !rest.any (fun x => x.1 = q) then s2.seqOff q else s2

/-- The operation named is at the front, or is issued when none waits. -/
def State.callSeq (s : State) (ext : List (Nat × List Byte)) (q : Nat) (isOpen : Bool) : State :=
  let s0 := s.qntPump
  (if s0.grid.seqOps.isEmpty then s0.issueSeq q isOpen else s0).runSeq ext q isOpen

/-- SEQ_OPEN (R309). Assumption log 88 (DEDUCED). -/
def execSeqOpen (q : Fin 8) (ext : List (Nat × List Byte)) (s : State) : Host.Outcome State Fault Refusal :=
  doneF (s.callSeq ext q.val true)

/-- SEQ_CLOSE (R308). Assumption log 88 (DEDUCED). -/
def execSeqClose (q : Fin 8) (ext : List (Nat × List Byte)) (s : State) : Host.Outcome State Fault Refusal :=
  doneF (s.callSeq ext q.val false)

/-- ENABLE of a sequence written as 1 (R301). -/
def State.seqEnable (s : State) (q : Nat) : State :=
  if s.flag (F.SEQ_CFG_ENABLE q) then s else
    ((((s.sf (F.SEQ_CFG_ENABLE q) 1).sf (F.SEQ_STEP_STEP q) 0).sf (F.SEQ_VERDICT_VERDICT q) 0).sf
      (F.SEQ_VERDICT_REPLAYS q) 0).setOpen q false

/-- ENABLE of a sequence written as 0: while BUSY it waits for the operation (R301, Table 11.16).
Assumption log 88 (DEDUCED). -/
def State.seqDisable (s : State) (q : Nat) : State :=
  if !s.flag (F.SEQ_CFG_ENABLE q) then s
  else if s.grid.seqOps.any (fun o => o.1 = q) then s.modGrid fun g => { g with disabling := g.disabling ||| 2 ^ q }
  else s.seqOff q

/-- SEQ_ENABLE (R301). -/
def execSeqEnable (q : Fin 8) (s : State) : Host.Outcome State Fault Refusal := doneF (s.seqEnable q.val)

/-- SEQ_DISABLE (R301). -/
def execSeqDisable (q : Fin 8) (s : State) : Host.Outcome State Fault Refusal := doneF (s.seqDisable q.val)

end Sys2Proof.Machine
end

