-- ==== Sys2Proof/Machine/Jobs.lean ====
section
/-! DEFINITION. The dispatcher (R228 to R232, R266 to R272, R301, R363 to R379): job operations and their answers, the
plan store, dispatches and their invocations, TRAIN coordination, mailboxes and the banks of JOB_SUBMIT. -/

namespace Sys2Proof.Machine

/-- Changes the dispatcher. -/
def State.modJob (s : State) (f : Jobs → Jobs) : State := { s with job := f s.job }

/-- JOB_COUNT (Table 13.23). -/
def State.jobCnt (s : State) (i : Nat) : State := s.cnt (R.JOB_COUNT i)

/-- OP values (Table 4.10). -/
abbrev opModelLoad : Nat := 1
abbrev opPlanLoad : Nat := 2
abbrev opJobDispatch : Nat := 3
abbrev opMailboxRead : Nat := 4
abbrev opMailboxRelease : Nat := 5

/-- OP_STATUS values (Table 13.1). -/
abbrev jsBadOperands : Nat := 1
abbrev jsQueueFull : Nat := 2
abbrev jsFetchError : Nat := 3
abbrev jsHashMismatch : Nat := 4
abbrev jsLimit : Nat := 5
abbrev jsMalformed : Nat := 6
abbrev jsNoSpace : Nat := 7
abbrev jsMailboxBusy : Nat := 8
abbrev jsNotReady : Nat := 9
abbrev jsEmpty : Nat := 10
abbrev jsUnknownOp : Nat := 0xFFFF

/-! ### Operations and answers -/

/-- A numeric field of an operation's operands: network order in a CONTROL, least significant byte first in JOB_SUBMIT
(R364). -/
def JobOp.fld (o : JobOp) (off k : Nat) : Nat := if o.ctl.isSome then beAt o.operands off k else leAt o.operands off k

/-- A bank of JOB_SUBMIT. -/
def State.bank (s : State) (b : Nat) : SubmitBank := tget (fun _ => {}) s.job.banks b
/-- Changes a bank. -/
def State.modBank (s : State) (b : Nat) (f : SubmitBank → SubmitBank) : State :=
  s.modJob fun j => { j with banks := tmod (fun _ => {}) j.banks b f }

/-- An operation answers (R364, R366). -/
def State.answerOp (s : State) (o : JobOp) (status : Nat) (result : List Byte) : State :=
  match o.ctl with
  | some m => s.controlAck m status result
  | none =>
    s.modBank o.bank fun b =>
      { b with
        busy := false, status := status, touched := if b.claimed.isSome then s.now else b.touched
        staged := (List.range 8).foldl (fun t k =>
          tset (fun _ => 0) t (8 + k) (BitVec.ofNat 64 (leAt result (8 * k) 8))) b.staged }

/-- JOB_STATUS follows the dispatcher (Table 13.18). -/
def State.syncJob (s : State) : State :=
  let s1 := s.sf F.JOB_STATUS_QUEUE_OCC s.job.queue.length
  match s.job.cur with
  | none => (s1.sf F.JOB_STATUS_RUNNING 0).sf F.JOB_STATUS_TRAINING 0
  | some d =>
    ((s1.sf F.JOB_STATUS_RUNNING 1).sf F.JOB_STATUS_PLAN d.plan).sf F.JOB_STATUS_TRAINING
      (b2n (d.phase = .runWait || d.phase = .commitWait))

/-- The end of a command of the dispatcher. -/
def doneJ (s : State) : Host.Outcome State Fault Refusal := doneG s.syncJob

/-- A mailbox. -/
def State.mailbox (s : State) (m : Nat) : Mailbox := tget (fun _ => {}) s.job.mail m
/-- Changes a mailbox. -/
def State.modMail (s : State) (m : Nat) (f : Mailbox → Mailbox) : State :=
  s.modJob fun j => { j with mail := tmod (fun _ => {}) j.mail m f }

/-- The operands of an operation for a mailbox (R378, R379): none when they are bad. -/
def JobOp.mailboxOf (o : JobOp) : Option Nat :=
  if (o.ctl.isSome && o.bodyLen != 112) || decide (4095 < o.fld 0 2) || o.fld 2 2 != 0 then none else some (o.fld 0 2)

/-- Whether the operands of a JOB_DISPATCH are bad (R371, Table 13.8). Assumption log 89 (DEDUCED). -/
def JobOp.dispatchBad (o : JobOp) : Bool :=
  (o.ctl.isSome && o.bodyLen != 220) || decide (63 < o.fld 0 1) || decide (7 < o.fld 1 1) || decide (4095 < o.fld 2 2) ||
  o.fld 26 2 = 0 || (slice o.operands 34 6).any (· != 0) || (!(o.fld 1 1).testBit 1 && o.fld 28 4 != 0) ||
  ((o.fld 1 1).testBit 1 && (o.fld 40 8 % 32 != 0 || o.fld 32 2 = 0))

/-- Whether the operands of a PLAN_LOAD are bad (R370). -/
def JobOp.loadBad (o : JobOp) : Bool :=
  (o.ctl.isSome && o.bodyLen != 172) || decide (63 < o.fld 0 1) || o.fld 1 1 != 0 || o.fld 2 2 != 0

/-- An operation finds the job queue full (R363). Assumption log 89 (DEDUCED). -/
def State.queueFull (s : State) (o : JobOp) : State :=
  (s.note F.JOB_EVENTS_QUEUE_FULL (R.JOB_COUNT 10)).answerOp o jsQueueFull []

/-- An operation arrives at the dispatcher: a PLAN_LOAD joins the job queue; the others wait for their own commands; an OP
that is no job operation is unknown. Assumption log 95 (DEDUCED). -/
def State.submitOp (s : State) (o : JobOp) : State :=
  if o.op = opPlanLoad then
    if o.loadBad then s.answerOp o jsBadOperands []
    else if 256 ≤ s.job.queue.length then s.queueFull o
    else s.modJob fun j => { j with queue := j.queue ++ [o] }
  else if o.op = opJobDispatch ∨ o.op = opMailboxRead ∨ o.op = opMailboxRelease then
    s.modJob fun j => { j with inbox := j.inbox ++ [o] }
  else s.answerOp o jsUnknownOp []

/-- Takes the oldest waiting operation of a kind. -/
def State.takeOp (s : State) (op : Nat) : Option (JobOp × State) :=
  match s.job.inbox.find? fun o => o.op = op with
  | none => none
  | some o => some (o, s.modJob fun j => { j with inbox := j.inbox.erase o })

/-- JOB_DISPATCH (R363, R371): the oldest JOB_DISPATCH that has arrived is queued, its mailbox becomes NOT_READY, and it
answers; or it is refused in the order of Table 13.1. -/
def execJobDispatch (s : State) : Host.Outcome State Fault Refusal :=
  match s.takeOp opJobDispatch with
  | none => done s
  | some (o, s0) =>
    if o.dispatchBad then doneJ (s0.answerOp o jsBadOperands [])
    else if 256 ≤ s0.job.queue.length then doneJ (s0.queueFull o)
    else if (s0.mailbox (o.fld 2 2)).state ≠ 0 then
      doneJ ((s0.raise F.JOB_EVENTS_MAILBOX_MISUSE).answerOp o jsMailboxBusy [])
    else
      let s1 := (s0.modMail (o.fld 2 2) fun _ => { state := 1, tag := o.fld 4 4 }).jobCnt 0
      doneJ ((s1.modJob fun j => { j with queue := j.queue ++ [o] }).answerOp o 0 [])

/-! ### Plan store -/

/-- Bytes of the plans held but for one slot. -/
def State.planBytes (s : State) (but : Nat) : Nat :=
  s.job.plans.foldl (fun n e => if e.1 = but then n else n + e.2.length) 0

/-- Whether the plan of another slot has declared a group number on a home die that a plan image declares (Table 12.9:
a number is unique on its home die). Assumption log 142 (DEDUCED). -/
def State.groupTaken (s : State) (slot : Nat) (im : List Byte) : Bool :=
  (planGroups im).any fun g =>
    let h := s.redGroup (leAt g 1 1) (leAt g 0 1)
    h.declared && h.plan != slot

/-- The status of a plan image (R370): the first of Table 13.1 that applies. -/
def State.planStatus (s : State) (slot len : Nat) (hash : List Byte) (img : Option (List Byte)) : Nat :=
  match img with
  | none => jsFetchError
  | some im =>
    if Config.sha384 im ≠ hash then jsHashMismatch
    else if planOverLimit im || s.groupTaken slot im then jsLimit
    else if planMalformed im none then jsMalformed
    else if s.gf F.JOB_PLAN_STORE_SIZE_MIB * 2 ^ 20 < s.planBytes slot + len then jsNoSpace
    else 0

/-- A plan enters its slot (R370, Table 13.25). Assumption log 96 (DESIGN CHOICE). -/
def State.placePlan (s : State) (slot : Nat) (im : List Byte) : State :=
  let s1 := s.modJob fun j => { j with plans := tins slot im j.plans }
  let s2 := s1.wrN (R.JOB_PLAN_INFO slot)
    (2 ^ 31 + planFlags im % 8 % 2 * 2 ^ 30 + bits (planFlags im) 1 1 * 2 ^ 29 + bits (planFlags im) 2 1 * 2 ^ 28 +
     leAt im 8 1 % 2 * 2 ^ 27 + planDims im % 8 * 2 ^ 20 + leAt im 10 2)
  ((s2.addCtr 32 (R.JOB_PLAN_VERSION slot) 1).jobCnt 9).declareGroups slot im

/-- PLAN_LOAD (R370): the PLAN_LOAD at the front of the job queue reads and checks its image, and stores it or is
refused. `ext` is what reads of host memory or of another module returned. -/
def execPlanLoad (ext : Option (List Byte)) (s : State) : Host.Outcome State Fault Refusal :=
  match s.job.cur, s.job.queue with
  | none, o :: rest =>
    if o.op ≠ opPlanLoad then done s else
      let s0 := s.modJob fun j => { j with queue := rest }
      let slot := o.fld 0 1
      let len := o.fld 12 4
      let (img, s1) := s0.dmaRead (o.fld 4 8) len ext
      let st := s1.planStatus slot len (slice o.operands 16 48) img
      doneJ ((if st = 0 then s1.placePlan slot (img.getD []) else s1).answerOp o st [])
  | _, _ => done s

/-! ### Mailboxes -/

/-- Word k of a mailbox (Table 13.14, R378). -/
def Mailbox.word (m : Mailbox) (k : Nat) : Nat :=
  if m.state ≠ 2 then (if k = 0 then m.state else 0)
  else if k = 0 then
    m.tag * 2 ^ 32 + m.outcome * 2 ^ 16 + m.cause * 2 ^ 8 + b2n m.empty * 8 + b2n m.repeat_ * 4 + 2
  else if k = 1 then m.cycles % 2 ^ 64
  else if k = 2 then m.bucket * 2 ^ 32 + m.invocations % 2 ^ 32
  else m.replays % 2 ^ 32 * 2 ^ 32 + m.steps % 2 ^ 32

/-- The mailbox read (R378): the four words, and REPEAT set after a read in READY. Assumption log 92 (DEDUCED). -/
def State.readMailbox (s : State) (m : Nat) : List Byte × State :=
  ((List.range 4).flatMap fun k => leBytes 8 ((s.mailbox m).word k),
   if (s.mailbox m).state = 2 then s.modMail m fun b => { b with repeat_ := true } else s)

/-- MAILBOX_READ (R378): a requester's read of word 0, or the oldest MAILBOX_READ operation.
Assumption log 92 (DEDUCED). -/
def execMailboxRead (src : Option Src) (m : BitVec 12) (s : State) : Host.Outcome State Fault Refusal :=
  match src with
  | some r =>
    let (d, s1) := s.readMailbox m.toNat
    done (s1.emit (.completion (srcCode r) stOk (d.take 8)))
  | none =>
    match s.takeOp opMailboxRead with
    | none => done s
    | some (o, s0) =>
      match o.mailboxOf with
      | none => doneJ (s0.answerOp o jsBadOperands [])
      | some k =>
        let (d, s1) := s0.readMailbox k
        doneJ (s1.answerOp o 0 d)

/-- A release (R379): its status. -/
def State.releaseMailbox (s : State) (m : Nat) : Nat × State :=
  let st := (s.mailbox m).state
  if st = 2 then (0, s.modMail m fun _ => {})
  else (if st = 1 then jsNotReady else jsEmpty, s.raise F.JOB_EVENTS_MAILBOX_MISUSE)

/-- A refusal reported to a requester (R36): an error completion, and for another module REMOTE_DENIED (R361). -/
def State.denied (s : State) (src : Src) : State :=
  let s1 := match src with
    | .rigging _ => s.note F.RIG_EVENTS_REMOTE_DENIED (R.RIG_COUNT 9)
    | _ => s
  s1.emit (.completion (srcCode src) stDenied [])

/-- A control-space access refused under R33: `c` is the bit of DECODE_ERR. -/
def State.ctlDenied (s : State) (src : Src) (c off : Nat) : State :=
  (s.decodeRefuse (srcCode src) c (gAddr s.modnum (0xF0000000000 + off))).denied src

/-- MAILBOX_RELEASE (R379): a requester's write to MBX_RELEASE, or the oldest MAILBOX_RELEASE operation. -/
def execMailboxRelease (src : Option Src) (m : BitVec 12) (s : State) : Host.Outcome State Fault Refusal :=
  match src with
  | some r =>
    match s.ctlRefused r R.JOB_MBX_RELEASE true with
    | some c => done (s.ctlDenied r c R.JOB_MBX_RELEASE)
    | none => doneJ (s.releaseMailbox m.toNat).2
  | none =>
    match s.takeOp opMailboxRelease with
    | none => done s
    | some (o, s0) =>
      match o.mailboxOf with
      | none => doneJ (s0.answerOp o jsBadOperands [])
      | some k =>
        let (st, s1) := s0.releaseMailbox k
        doneJ (s1.answerOp o st [])

/-! ### Submission -/

/-- The bank of a requester (R364); strands and the Bowsprit have none. Assumption log 27 (DEDUCED). -/
def bankOf : Src → Option Nat
  | .mgmt => some 0
  | .pcie => some 1
  | .rigging _ => some 2
  | _ => none

/-- Whether a requester is shut out of the Rigging bank by another module's claim (R365). -/
def State.claimedOther (s : State) (src : Src) : Bool :=
  match src with
  | .rigging m => (match (s.bank 2).claimed with
    | some o => o != m.toNat
    | none => false)
  | _ => false

/-- A write of a requester to its bank: another module claims an unclaimed bank, and every access of the owner counts
(R365). -/
def State.touchBank (s : State) (src : Src) : State :=
  match src with
  | .rigging m => s.modBank 2 fun b =>
      if b.claimed.isNone then { b with claimed := some m.toNat, gone := false, touched := s.now }
      else { b with touched := s.now }
  | _ => s

/-- SUBMIT_STATUS of a bank (Table 13.24). -/
def SubmitBank.statusWord (b : SubmitBank) : Nat :=
  b2n b.busy * 2 ^ 31 + (match b.claimed with
    | some m => 2 ^ 28 + m * 2 ^ 16
    | none => 0) + b.status

/-- The operands staged in a bank: SUBMIT[1] onward. -/
def SubmitBank.operands (b : SubmitBank) : List Byte :=
  (List.range 15).flatMap fun k => leBytes 8 (tget (fun _ => (0 : W64)) b.staged (k + 1)).toNat

/-- GO of a bank (R364). -/
def State.submitGo (s : State) (src : Src) : State :=
  match bankOf src with
  | none => s
  | some k =>
    let s1 := s.touchBank src
    let b := s1.bank k
    if b.busy then s1 else
      let s2 := s1.modBank k fun b => { b with busy := true, gone := true }
      s2.submitOp { op := (tget (fun _ => (0 : W64)) b.staged 0).toNat % 2 ^ 16, operands := b.operands, bank := k }

/-- SUBMIT_GO (R364, R365): a write of 1 to GO. -/
def execSubmitGo (src : Src) (s : State) : Host.Outcome State Fault Refusal :=
  match s.ctlRefused src 0xF00480 true with
  | some c => done (s.ctlDenied src c 0xF00480)
  | none => doneJ (if s.claimedOther src then s.denied src else s.submitGo src)

/-- The owner's read of SUBMIT_STATUS: with BUSY 0 after its GO the claim ends (R365). -/
def State.readStatus (s : State) (src : Src) : Nat × State :=
  match bankOf src with
  | none => (0, s)
  | some k =>
    let b := s.bank k
    let w := b.statusWord
    match src, b.claimed with
    | .rigging m, some o =>
      if o = m.toNat then
        (w, s.modBank 2 fun b => if !b.busy && b.gone then { b with claimed := none, gone := false } else { b with touched := s.now })
      else (w, s)
    | _, _ => (w, s)

/-- SUBMIT_STATUS_READ (R365). -/
def execSubmitStatusRead (src : Src) (s : State) : Host.Outcome State Fault Refusal :=
  let (w, s1) := s.readStatus src
  done (s1.emit (.completion (srcCode src) stOk (leBytes 4 w)))

/-- CLAIM_EXPIRED (R365): 75,000 CK_TICK cycles with BUSY 0 and no access from the owner end a claim. -/
def execClaimExpired (s : State) : Host.Outcome State Fault Refusal :=
  let b := s.bank 2
  if b.claimed.isNone || b.busy then done s else
    let s1 := s.advanceTo (b.touched + 75000 * tickNet)
    done (s1.modBank 2 fun b => { b with claimed := none, gone := false })

/-! ### Shapes and buckets -/

/-- Whether a bucket covers a shape (R268). -/
def covers (im : List Byte) (b : Nat) (dims : List Nat) : Bool :=
  dims.zipIdx.all fun (x : Nat × Nat) => decide (x.1 ≤ bucketVal im b x.2)

/-- The bucket of a shape (R268). -/
def bucketFor (im : List Byte) (dims : List Nat) : Option Nat :=
  let prod (b : Nat) : Nat := (bucketVals im b).foldl (· * ·) 1
  (List.range (planBuckets im)).foldl (fun best b =>
    if !covers im b dims then best
    else match best with
      | none => some b
      | some c => if prod b < prod c then some b else some c) none

/-- The largest bucket value of a dimension. -/
def topVal (im : List Byte) (d : Nat) : Nat := (List.range (planBuckets im)).foldl (fun m b => max m (bucketVal im b d)) 0

/-- How a dispatch is cut (R270): whether it is chunked, and per dimension the chunk size and count; none is
SHAPE_EXCEEDS. Assumption log 91 (DEDUCED). -/
def cutShape (im : List Byte) (dims : List Nat) : Option (Bool × List (Nat × Nat)) :=
  match bucketFor im dims with
  | some _ => some (false, dims.map fun v => (v, 1))
  | none =>
    let excess := dims.zipIdx.filter fun (x : Nat × Nat) => decide (topVal im x.2 < x.1)
    let parts := dims.zipIdx.map fun (x : Nat × Nat) =>
      if topVal im x.2 < x.1 then (topVal im x.2, cdiv x.1 (topVal im x.2)) else (x.1, 1)
    if (planFlags im).testBit 2 && excess.all (fun (x : Nat × Nat) => dimClass im x.2 != 2 && dimChunk im x.2 && topVal im x.2 != 0) &&
        decide ((parts.map (·.2)).foldl (· * ·) 1 ≤ 65536) then some (true, parts) else none

/-- Chunks of a dispatch. -/
def chunkCount (parts : List (Nat × Nat)) : Nat := (parts.map (·.2)).foldl (· * ·) 1

/-- Shape and origin of chunk k, dimension 0 varying slowest (R270). -/
def chunkAt : List (Nat × Nat) → List Nat → Nat → List (Nat × Nat)
  | (size, n) :: t, v :: vs, k =>
    let inner := (t.map (·.2)).foldl (· * ·) 1
    let c := k / inner % n
    (if n = 1 then (v, 0) else (min size (v - c * size), c * size)) :: chunkAt t vs k
  | _, _, _ => []

/-- What a dispatcher's decision comes to (R272): a refusal with an OUTCOME, a wait, or an invocation with its variant,
bucket, shape and origins, its parts, and whether the dispatch is chunked. -/
inductive Decision where
  | refuse (outcome : Nat)
  | empty
  | wait
  | go (variant bucket : Nat) (shape : List (Nat × Nat)) (parts : List (Nat × Nat)) (chunked : Bool)
  deriving DecidableEq, Repr

/-- OUTCOME values (Table 13.11). -/
abbrev ocmOk : Nat := 0
abbrev ocmShape : Nat := 1
abbrev ocmAcc : Nat := 2
abbrev ocmConflict : Nat := 3
abbrev ocmFull : Nat := 4
abbrev ocmSeq : Nat := 5
abbrev ocmNoPlan : Nat := 6
abbrev ocmFaulted : Nat := 7
abbrev ocmBad : Nat := 8
abbrev ocmSeqFailed : Nat := 9
abbrev ocmRound : Nat := 10
abbrev ocmAborted : Nat := 11

/-- The sequences of a mask. -/
def seqsOf (mask : Nat) : List Nat := (List.range 8).filter mask.testBit

/-- SEQ_NOT_OPEN of R301. -/
def State.seqNotOpen (s : State) (mask variant : Nat) : Bool :=
  (seqsOf mask).any fun q =>
    !s.flag (F.SEQ_CFG_ENABLE q) ||
    (if variant = 3 then
      s.isOpen q || !(s.gf (F.SEQ_VERDICT_VERDICT q) = vdAccept || s.gf (F.SEQ_VERDICT_VERDICT q) = vdClipped)
     else !s.isOpen q)

/-- A RESIDENT range joins a table, merged with ranges of its owner that it meets. -/
def addRange (r : ResRange) : List ResRange → List ResRange
  | [] => [r]
  | x :: t =>
    if x.owner = r.owner ∧ x.first ≤ r.first + r.count ∧ r.first ≤ x.first + x.count then
      let lo := min x.first r.first
      addRange ⟨lo, max (x.first + x.count) (r.first + r.count) - lo, r.owner⟩ t
    else x :: addRange r t

/-- The residency tables once a plan's ranges are declared. -/
def declared (tables : List (Nat × List ResRange)) (owner : Nat) (rs : List (Nat × Nat × Nat)) : List (Nat × List ResRange) :=
  rs.foldl (fun t r => tmod (fun _ => []) t r.1 (addRange ⟨r.2.1, r.2.2, owner⟩)) tables

/-- RESIDENT_CONFLICT or RESIDENT_FULL of R229, or 0. -/
def State.residencyCheck (s : State) (im : List Byte) : Nat :=
  let rs := planResidency im
  let owner := planOwner im
  if (owner = 0 && !rs.isEmpty) || rs.any (fun r =>
      (tget (fun _ => []) s.grid.residency r.1).any fun (x : ResRange) =>
        x.owner != owner && decide (x.first < r.2.1 + r.2.2) && decide (r.2.1 < x.first + x.count)) then ocmConflict
  else if (declared s.grid.residency owner rs).any (fun e => decide (8 < e.2.length)) then ocmFull
  else 0

/-- The variant run in a bucket: the commit section; else the chunking form of a chunked dispatch; else the folded form
of a test (R266), where the bucket has it. Assumption log 91 (DEDUCED). -/
def variantFor (d : Dispatch) (chunked : Bool) (b : Nat) : Nat :=
  let want := if d.phase = .commit then 3 else if chunked then 2 else if d.test then 1 else 0
  if want = 3 || hasVariant d.image want b then want else 0

/-- The decision for the invocation to come (R272). Assumption log 91 (DEDUCED). -/
def State.decision (s : State) (d : Dispatch) : Decision :=
  let im := d.image
  if d.dims.zipIdx.any fun (x : Nat × Nat) => x.1 = 0 && dimClass im x.2 != 2 then .empty
  else match cutShape im d.dims with
    | none => .refuse ocmShape
    | some (chunked, parts) =>
      let shapes := if d.chunk = 0 then (List.range (chunkCount parts)).map fun k => chunkAt parts d.dims k
        else [chunkAt parts d.dims d.chunk]
      let bs := shapes.map fun sh => bucketFor im (sh.map (·.1))
      if bs.any (·.isNone) then .refuse ocmShape
      else if bs.any (fun b => match b with
          | some b => accOver (planTiles im (variantFor d chunked b) b) (bucketVals im b)
          | none => false) then .refuse ocmAcc
      else
        let b := (bs.headD none).getD 0
        let v := variantFor d chunked b
        let mask := planSeqs im
        if s.grid.seqOps.any fun o => mask.testBit o.1 then .wait
        else if s.seqNotOpen mask v then .refuse ocmSeq
        else
          let r := s.residencyCheck im
          if r ≠ 0 then .refuse r
          else if !s.grid.zeroing.isEmpty || (s.run? 0).isSome || s.recov.checkpoint.any (fun c => !c.done || c.handover) ||
              s.flag F.CLK_STATUS_REEF_PENDING || s.modState = msFailed then .wait
          else .go v b (chunkAt parts d.dims d.chunk) parts chunked

/-! ### Invocations -/

/-- The invocation record (Table 13.9). -/
def invRecord (d : Dispatch) (shape : List (Nat × Nat)) : List Byte :=
  ((List.range 4).flatMap fun k => leBytes 4 ((shape.getD k (0, 0)).1)) ++
  ((List.range 4).flatMap fun k => leBytes 4 ((shape.getD k (0, 0)).2)) ++
  leBytes 4 (d.shardFirst + d.shard) ++ leBytes 4 (planShards d.image) ++ leBytes 4 d.tag ++ leBytes 4 d.rerun ++
  ((List.range 8).flatMap fun a => leBytes 8 (d.args.getD a 0)) ++ List.replicate 16 0

/-- A tile of a run, from its record and the plan. -/
def tileFor (im : List Byte) (r : TileRec) : Tile :=
  { slots := r.slots, code := r.code
    strands := r.strands.foldl (fun t (x : Nat × Nat) => tins x.1 { pc := x.2, start := x.2 } t) []
    sheets := planSheets im r.site, exported := planExport im r.site }

/-- The tiles of a plan in a variant and bucket: those with code, RESIDENT rows or an export. -/
def runTiles (im : List Byte) (variant bucket : Nat) : List (Nat × Tile) :=
  let blank (t : List (Nat × Tile)) (site : Nat) : List (Nat × Tile) :=
    if (tfind site t).isSome then t else tins site { exported := planExport im site } t
  let exports := (sectBytes im 5).flatMap fun (l : List Byte) =>
    (List.range (l.length / 4)).map fun k => siteField (leAt l (4 * k) 2)
  let coded := (planTiles im variant bucket).foldl (fun t (r : TileRec) => tins r.site (tileFor im r) t) []
  exports.foldl blank (((planResidency im).map (·.1)).foldl blank coded)

/-- Plan cycle 0 of an invocation (R272, R372): the residency tables, the invocation record, the run. -/
def State.startInvocation (s : State) (d : Dispatch) (v b : Nat) (shape : List (Nat × Nat)) : State :=
  let im := d.image
  let tiles := runTiles im v b
  let r := invRecord d shape
  let s1 := s.modGrid fun g => { g with residency := declared g.residency (planOwner im) (planResidency im) }
  let s2 := tiles.foldl (fun s (e : Nat × Tile) =>
    if isM e.1 then (s.rowPut e.1 8190 (r.take 64) false).rowPut e.1 8191 (r.drop 64) false else s) s1
  let run : Run :=
    { owner := planOwner im, seqMask := planSeqs im, variant := v, last := bucketLast im b, from_ := s.arith + 1
      tiles := tiles, bucket := bucketVals im b, dims := shape.map (·.1), lists := planLists im, args := d.args
      shard := d.shardFirst + d.shard, reproducible := (planFlags im).testBit 0 }
  ((s2.setRun 0 run).jobCnt 1).modJob fun j =>
    { j with cur := some { d with running := true, bucket := b, invocations := d.invocations + 1 } }

/-! ### The end of a dispatch -/

/-- Events and counters of an outcome (Tables 13.21, 13.23). -/
def State.noteOutcome (s : State) (o : Nat) : State :=
  if o = ocmShape then s.note F.JOB_EVENTS_SHAPE_EXCEEDS (R.JOB_COUNT 3)
  else if o = ocmAcc then s.note F.JOB_EVENTS_ACC_OVERCOMMIT (R.JOB_COUNT 4)
  else if o = ocmConflict ∨ o = ocmFull then s.note F.JOB_EVENTS_RESIDENT_REFUSED (R.JOB_COUNT 6)
  else if o = ocmSeq then s.note F.JOB_EVENTS_SEQ_NOT_OPEN (R.JOB_COUNT 7)
  else if o = ocmFaulted ∨ o = ocmSeqFailed then s.note F.JOB_EVENTS_JOB_FAULTED (R.JOB_COUNT 8)
  else if o = ocmRound then s.note F.JOB_EVENTS_ROUND_FAILED (R.JOB_COUNT 8)
  else s

/-- MAILBOX_READY (R377): the dispatch ends and its mailbox holds its record. -/
def State.endDispatch (s : State) (d : Dispatch) (outcome cause : Nat) (empty : Bool) : State :=
  let s1 := s.modMail d.mailbox fun m =>
    { m with
      state := 2, repeat_ := false, tag := d.tag, outcome := outcome, cause := cause, empty := empty, cycles := d.cycles
      bucket := d.bucket, invocations := d.invocations, replays := d.replays, steps := d.accepted }
  ((s1.noteOutcome outcome).raise F.JOB_EVENTS_MAILBOX_READY).modJob fun j => { j with cur := none }

/-! ### TRAIN coordination -/

/-- A write of the dispatcher to the step record, released (R373). -/
def State.jobWrite (s : State) (a : Nat) (d : List Byte) : State :=
  if s.isOwn (gModule a) then (s.localWrite .mgmt a d 0 false).2 else s.issue .job 0 opWrite a d.length 0 2 d

/-- A released ATOMIC_ADD of 1 to a word of the step record. -/
def State.arrive (s : State) (a : Nat) : State :=
  if s.isOwn (gModule a) then (s.atomicLocal .mgmt opAdd a 8 1 0 false).2.2
  else s.issue .job 0 opAdd a 8 0 2 (leBytes 8 1)

/-- A word of the step record as the dispatcher reads it: of the module's own memory, or what the read returned. -/
def State.stepWord (s : State) (a : Nat) (ext : Option W64) : Option Nat :=
  if s.isOwn (gModule a) then
    match placeOf (gOff a) with
    | .hbm off => if s.hbmPoisoned off 8 then none else some (leNat (s.hbmRead off 8))
    | _ => none
  else ext.map (·.toNat)

/-- Sets the dispatch in progress. -/
def State.setCur (s : State) (d : Dispatch) : State := s.modJob fun j => { j with cur := some d }

/-- Everything of a round is run: the next round begins, or the dispatch waits at its barrier (R372, R373). -/
def State.afterShards (s : State) (d : Dispatch) : State :=
  if !d.train then s.endDispatch d ocmOk 0 false
  else if d.phase = .commit then
    (s.arrive (d.stepAddr + 8)).setCur { d with phase := .commitWait, shard := 0, chunk := 0 }
  else (s.arrive d.stepAddr).setCur { d with phase := .runWait, shard := 0, chunk := 0 }

/-- An invocation completed: the next chunk, the next shard, or the end of the shards. -/
def State.afterInvocation (s : State) (d : Dispatch) : State :=
  let n := match cutShape d.image d.dims with
    | some (_, parts) => chunkCount parts
    | none => 1
  if d.chunk + 1 < n then s.setCur { d with chunk := d.chunk + 1 }
  else if d.shard + 1 < d.shardCount then s.setCur { d with shard := d.shard + 1, chunk := 0 }
  else s.afterShards { d with shard := 0, chunk := 0 }

/-- The next round of a TRAIN dispatch, or its end once STEPS steps are accepted. -/
def State.nextRun (s : State) (d : Dispatch) (accepted : Bool) : State :=
  let d1 : Dispatch :=
    if accepted then { d with accepted := d.accepted + 1, rerun := 0 }
    else { d with replays := d.replays + 1, rerun := d.rerun + 1 }
  let s1 := if accepted then s.jobCnt 11 else s
  if d1.steps ≤ d1.accepted then s1.endDispatch d1 ocmOk 0 false
  else s1.setCur { d1 with run := d.run + 1, phase := .shards, shard := 0, chunk := 0, verdict := 0 }

/-- STATE of the step record (Table 13.10). -/
def stateWord (run verdict : Nat) (opened : Bool) : List Byte := leBytes 8 (run % 2 ^ 40 + verdict * 2 ^ 40 + b2n opened * 2 ^ 44)

/-- The commit section is run, or skipped when the plan has none. Assumption log 90 (DEDUCED). -/
def State.beginCommit (s : State) (d : Dispatch) : State :=
  let d1 := { d with phase := .commit, shard := 0, chunk := 0 }
  if (planFlags d.image).testBit 3 then s.setCur d1 else s.afterShards d1

/-- Whether a verdict accepts a step. -/
def accepts (v : Nat) : Bool := v = vdAccept || v = vdClipped

/-- The verdict of a CLOSE of several sequences: the worst of them. Assumption log 90 (DEDUCED). -/
def worstVerdict (vs : List Nat) : Nat :=
  if vs.contains vdFailed then vdFailed else if vs.contains vdReplay then vdReplay
  else if vs.contains vdClipped then vdClipped else vdAccept

/-- The lead opens the job's sequences and writes OPENED (R373). -/
def State.leadOpen (s : State) (d : Dispatch) (ext : List (Nat × List Byte)) : State :=
  let s1 := (seqsOf (planSeqs d.image)).foldl (fun s q => (s.issueSeq q true).runSeq ext q true) s
  s1.jobWrite (d.stepAddr + 16) (stateWord d.run d.verdict true)

/-- RUN_BARRIER (R373): the lead sees RUN_ARRIVALS reach MODULES × r, performs the CLOSE and writes STATE. After REPLAY the
OPEN follows at once. -/
def execRunBarrier (arrivals : Option W64) (ext : List (Nat × List Byte)) (s : State) : Host.Outcome State Fault Refusal :=
  match s.job.cur with
  | none => done s
  | some d =>
    let mask := planSeqs d.image
    if !d.train || !d.lead || d.phase ≠ .runWait || !s.grid.seqOps.isEmpty || (seqsOf mask).any s.seqInUse ||
        s.stepWord d.stepAddr arrivals ≠ some (d.modules * d.run) then done s
    else
      let s1 := (seqsOf mask).foldl (fun s q => (s.issueSeq q false).runSeq ext q false) s
      let v := worstVerdict ((seqsOf mask).map fun q => s1.gf (F.SEQ_VERDICT_VERDICT q))
      let s2 := s1.jobWrite (d.stepAddr + 16) (stateWord d.run v false)
      let d1 := { d with verdict := v }
      doneJ (if v = vdFailed then s2.endDispatch d1 ocmSeqFailed 0 false
        else if v = vdReplay then (s2.leadOpen d1 ext).nextRun d1 false
        else s2.beginCommit d1)

/-- COMMIT_BARRIER (R373): the lead sees COMMIT_ARRIVALS reach MODULES × (k + 1), performs the OPEN and writes OPENED. -/
def execCommitBarrier (arrivals : Option W64) (ext : List (Nat × List Byte)) (s : State) : Host.Outcome State Fault Refusal :=
  match s.job.cur with
  | none => done s
  | some d =>
    if !d.train || !d.lead || d.phase ≠ .commitWait || !s.grid.seqOps.isEmpty ||
        s.stepWord (d.stepAddr + 8) arrivals ≠ some (d.modules * (d.accepted + 1)) then done s
    else doneJ ((s.leadOpen d ext).nextRun d true)

/-- A verdict that another module's CLOSE gave, taken over by this module's own sequences.
Assumption log 90 (DEDUCED). -/
def State.takeVerdict (s : State) (mask v : Nat) : State :=
  (seqsOf mask).foldl (fun s q =>
    let s1 := (s.setOpen q false).sf (F.SEQ_VERDICT_VERDICT q) v
    if accepts v then
      (s1.sf (F.SEQ_VERDICT_REPLAYS q) 0).sf (F.SEQ_STEP_STEP q) ((s.gf (F.SEQ_STEP_STEP q) + 1) % 2 ^ 40)
    else if v = vdReplay then s1.sf (F.SEQ_VERDICT_REPLAYS q) (s.gf (F.SEQ_VERDICT_REPLAYS q) + 1)
    else s1) s

/-- STEP_STATE_SEEN (R373): a module that does not lead sees STATE show its run. -/
def execStepStateSeen (state : Option W64) (s : State) : Host.Outcome State Fault Refusal :=
  match s.job.cur with
  | none => done s
  | some d =>
    match if d.train && !d.lead then s.stepWord (d.stepAddr + 16) state else none with
    | none => done s
    | some w =>
      if w % 2 ^ 40 ≠ d.run % 2 ^ 40 then done s else
      let v := bits w 40 4
      let opened := w.testBit 44
      let open_ (s : State) : State := (seqsOf (planSeqs d.image)).foldl (fun s q => s.openPlain q) s
      if d.phase = .runWait then
        let s1 := s.takeVerdict (planSeqs d.image) v
        let d1 := { d with verdict := v }
        doneJ (if v = vdFailed then s1.endDispatch d1 ocmSeqFailed 0 false
          else if accepts v then s1.beginCommit d1
          else if opened then (open_ s1).nextRun d1 false
          else s1.setCur { d1 with phase := .commitWait })
      else if d.phase = .commitWait ∧ opened then doneJ ((open_ s).nextRun d (accepts d.verdict))
      else done s

/-! ### Dispatch -/

/-- A JOB_DISPATCH taken from the queue. -/
def State.dispatchOf (s : State) (o : JobOp) : Dispatch :=
  let im := ((tfind (o.fld 0 1) s.job.plans).getD [])
  { plan := o.fld 0 1, image := im, test := (o.fld 1 1).testBit 0, train := (o.fld 1 1).testBit 1
    lead := (o.fld 1 1).testBit 2, mailbox := o.fld 2 2, tag := o.fld 4 4
    dims := (List.range (planDims im)).map fun d => o.fld (8 + 4 * d) 4
    shardFirst := o.fld 24 2, shardCount := o.fld 26 2, steps := o.fld 28 4, modules := o.fld 32 2
    stepAddr := o.fld 40 8 % 2 ^ 56, args := (List.range 8).map fun a => o.fld (48 + 8 * a) 8 }

/-- BAD_DISPATCH of Table 13.11. Assumption log 89 (DEDUCED). -/
def Dispatch.bad (d : Dispatch) : Bool :=
  d.dims.any (fun v => decide (65535 < v)) || decide (planShards d.image < d.shardFirst + d.shardCount) ||
  (d.train && planSeqs d.image = 0)

/-- Takes the JOB_DISPATCH at the front of the queue. -/
def State.takeDispatch (s : State) : State :=
  match s.job.cur, s.job.queue with
  | none, o :: rest =>
    if o.op ≠ opJobDispatch then s else
      let s0 := (s.modJob fun j => { j with queue := rest }).sf F.JOB_STATUS_PLAN (o.fld 0 1)
      let d := s0.dispatchOf o
      if d.image.isEmpty then s0.endDispatch d ocmNoPlan 0 false
      else if d.bad then s0.endDispatch d ocmBad 0 false
      else if d.train && d.steps = 0 then s0.endDispatch d ocmOk 0 false
      else s0.setCur d
  | _, _ => s

/-- INVOCATION_DISPATCH (R272): the invocation to come is decided and, when nothing refuses or delays it, begins. -/
def execInvocationDispatch (s : State) : Host.Outcome State Fault Refusal :=
  let s0 := s.takeDispatch
  match s0.job.cur with
  | none => doneJ s0
  | some d =>
    if d.running || d.phase = .runWait || d.phase = .commitWait then doneJ s0
    else match s0.decision d with
      | .empty => doneJ ((s0.jobCnt 2).endDispatch d ocmOk 0 true)
      | .refuse o => doneJ (s0.endDispatch d o 0 false)
      | .wait => doneJ s0
      | .go v b shape _ chunked =>
        let s1 := if chunked && d.chunk = 0 && d.shard = 0 && d.invocations = 0 then s0.jobCnt 5 else s0
        doneJ (s1.startInvocation d v b shape)

/-! ### The end of an invocation -/

/-- A completed invocation is reported once its last flush is performed (R304). -/
def State.reportInvocation (s : State) : State :=
  match s.run? 0, s.job.cur with
  | some r, some d =>
    if !r.closed || s.grid.flushes.any (fun e => e.2.atEnd) then s else
      let s1 := s.modGrid fun g => { g with runs := tdel 0 g.runs }
      let d1 := { d with running := false, cycles := d.cycles + r.cycle + 1 }
      if r.roundFailed then s1.endDispatch d1 ocmRound 0 false
      else match r.fault with
        | some (_, 0) => s1.endDispatch d1 ocmAborted 0 false
        | some (_, c) => s1.endDispatch d1 ocmFaulted c false
        | none => s1.afterInvocation d1
  | _, _ => s

/-- Every RESIDENT row of an owner becomes FREE and zero (R232). -/
def State.releaseOwner (s : State) (owner : Nat) : State :=
  let mine (site row : Nat) : Bool := s.ownerOf site row = some owner
  s.modGrid fun g =>
    { g with
      sram := g.sram.filter fun c => !mine (c.1 / 2 ^ 19) (c.1 % 2 ^ 19 / rowLen (c.1 / 2 ^ 19))
      sramPoison := g.sramPoison.filter fun c => !mine (c.1 / 8192) (c.1 % 8192)
      residency := (g.residency.map fun e => (e.1, e.2.filter fun r => r.owner != owner)).filter fun e => !e.2.isEmpty
      releases := g.releases.filter fun o => o != owner }

/-- RELEASE_PENDING follows the releases that wait. -/
def State.syncRelease (s : State) : State :=
  (List.range 4).foldl (fun s d => s.sf (F.MEM_RES_STATUS_RELEASE_PENDING d) (b2n !s.grid.releases.isEmpty)) s

/-- Whether an invocation of an owner runs. -/
def State.ownerRuns (s : State) (owner : Nat) : Bool := s.grid.runs.any fun e => e.2.owner = owner && !e.2.closed

/-- Releases whose owner no longer runs take effect. -/
def State.dueReleases (s : State) : State :=
  (s.grid.releases.foldl (fun s o => if s.ownerRuns o then s else s.releaseOwner o) s).syncRelease

/-- RES_RELEASE (R232): a write of an owner tag. Assumption log 94 (DEDUCED). -/
def State.resRelease (s : State) (owner : Nat) : State :=
  if s.ownerRuns owner then (s.modGrid fun g => { g with releases := g.releases ++ [owner] }).syncRelease
  else (s.releaseOwner owner).syncRelease

/-- RES_RELEASE (R232). Assumption log 94 (DEDUCED). -/
def execResRelease (owner : W32) (s : State) : Host.Outcome State Fault Refusal := doneG (s.resRelease owner.toNat)

/-- The end of an invocation (R231, R304, R337): its census is flushed, its POLLs are abandoned, and zeroing of its tiles
begins. Assumption log 93 (DEDUCED). -/
def State.closeRun (s : State) (r : Run) : State :=
  let s1 := r.tiles.foldl (fun s (e : Nat × Tile) => (s.flushCensus 0 e.1 none true).getD s) s
  let s2 := s1.modGrid fun g =>
    { g with
      dma := g.dma.filter fun c => !(c.run = 0 && c.kind = 4)
      zeroing := r.tiles.map fun (e : Nat × Tile) => (e.1, e.2.furled) }
  (s2.modRun 0 fun r => { r with closed := true }).dueReleases.dmaPump

/-- INVOCATION_END (R231): the plan cycles run out, or the plan has faulted. Assumption log 93 (DEDUCED). -/
def execInvocationEnd (s : State) : Host.Outcome State Fault Refusal :=
  match s.run? 0 with
  | none => done s
  | some r0 =>
    let s0 := if r0.isOver then s else s.advancePlan 0 (r0.last + 1)
    match s0.run? 0 with
    | none => doneJ s0
    | some r =>
      if !r.isOver || r.closed then doneJ s0
      else doneJ (s0.closeRun r).reportInvocation

/-- Zeroes the rows of sites that are not RESIDENT, with their marks, and their accumulators; furled banks are erased
(R231). -/
def State.zeroSites (s : State) (sites : List (Nat × Nat)) : State :=
  let gone (site row : Nat) : Bool := (tfind site sites).isSome && (s.ownerOf site row).isNone
  let s1 := s.modGrid fun g =>
    { g with
      sram := g.sram.filter fun c => !gone (c.1 / 2 ^ 19) (c.1 % 2 ^ 19 / rowLen (c.1 / 2 ^ 19))
      sramPoison := g.sramPoison.filter fun c => !gone (c.1 / 8192) (c.1 % 8192)
      acc := g.acc.filter fun c => (tfind (c.1 / 16 / 2048) sites).isNone
      accPoison := g.accPoison.filter fun c => (tfind (c.1 / 2048) sites).isNone }
  sites.foldl (fun s (e : Nat × Nat) => (List.range 16).foldl (fun s b =>
    if e.2.testBit b then s.eraseBank e.1 b else s) s) s1

/-- ZEROING_DONE (R231). Assumption log 94 (DEDUCED). -/
def execZeroingDone (s : State) : Host.Outcome State Fault Refusal :=
  let s1 := s.zeroSites (s.grid.zeroing.foldl (fun t e => tins e.1 e.2 t) [])
  doneJ ((s1.modGrid fun g => { g with zeroing := [] }).dueReleases)

/-- CENSUS_FLUSH_DONE (R304): every command of a flush has been performed; the CSET's counter increments, and after an
invocation's last flush its completion is reported. -/
def execCensusFlushDone (flush : Nat) (s : State) : Host.Outcome State Fault Refusal :=
  match tfind flush s.grid.flushes with
  | none => done s
  | some f =>
    if f.left ≠ 0 then done s else
      let s1 := s.modGrid fun g => { g with flushes := tdel flush g.flushes }
      doneJ (match f.ac with
        | some k => s1.acAdd k 1
        | none => s1.reportInvocation)

end Sys2Proof.Machine
end

