-- ==== Sys2Proof/Machine/Model.lean ====
section
/-! DEFINITION. CONTROL verification (R129 to R131, R426), the loading, placing and switching of models (R139, R140,
R152 to R160, R184, R185), and the scrubbers of tile SRAM and HBM (R238, R246). -/

namespace Sys2Proof.Machine

/-! ### CONTROL verification -/

/-- SEC_COUNT (Table 15.18). -/
def State.secCnt (s : State) (i : Nat) (k : Nat := 1) : State := s.addCtr 48 (R.SEC_COUNT i) k

/-- Whether an operator key slot holds a key (R425). -/
def State.keyValid (s : State) (k : Nat) : Bool := (s.rd (R.SEC_OPKEY k 12)).toNat.testBit 0

/-- A coordinate of an operator key: six words from `w`, the first most significant (Table 15.21). -/
def State.keyCoord (s : State) (k w : Nat) : Nat :=
  (List.range 6).foldl (fun a i => a * 2 ^ 64 + (s.rd (R.SEC_OPKEY k (w + i))).toNat) 0

/-- The order of the P-384 group (FIPS 186-5). Assumption log 50 (PRESUMED). -/
def p384Order : Nat :=
  0xFFFFFFFFFFFFFFFFFFFFFFFFFFFFFFFFFFFFFFFFFFFFFFFFC7634D81F4372DDF581A0DB248B0A77AECEC196ACCC52973

/-- Whether a number may be a signature's r or s (R426). Assumption log 50 (PRESUMED). -/
def sigNumOk (n : Nat) : Bool := n != 0 && decide (n < p384Order)

/-- Whether a 96-byte signature verifies (R426). -/
def signatureOk (x y : Nat) (digest sig : List Byte) : Bool :=
  sigNumOk (beAt sig 0 48) && sigNumOk (beAt sig 48 48) && Config.ecdsaP384 x y digest sig

/-- The bytes a CONTROL's signature covers (R130): up to the signature, FLAGS taken as zero. -/
def signedBytes (m : List Byte) : List Byte := patch (m.take (32 + bodyLenOf m - 96)) 4 [0, 0]

/-- Step 1 to 4 of R130: the HLY_COUNT index of the failure, and whether the signature was checked.
Assumption log 49 (DEDUCED). -/
def State.ctlCheck (s : State) (m : CtlMsg) : Option Nat × Bool :=
  let b := m.msg
  let k := beAt b 34 1 % 8
  if !s.keyValid k then (some 17, false)
  else if beAt b 36 8 ≠ (s.rd R.HLY_BOOT_NONCE).toNat then (some 18, false)
  else if !signatureOk (s.keyCoord k 0) (s.keyCoord k 6) (Config.sha384 (signedBytes b))
      (slice b (32 + bodyLenOf b - 96) 96) then (some 17, true)
  else if !m.isEcho && decide (m.id ≤ (s.rd (R.HLY_CTRL_LAST_ID k)).toNat) then (some 18, true)
  else (none, true)

/-- The operation of a verified CONTROL starts (R130). -/
def State.startControl (s : State) (m : CtlMsg) : State :=
  let op := beAt m.msg 32 2
  if op = opModelLoad then { s with teu := { s.teu with loads := s.teu.loads ++ [{ ctl := m }] } }
  else if 2 ≤ op ∧ op ≤ 5 then
    s.submitOp { op := op, operands := m.msg.drop 44, bodyLen := bodyLenOf m.msg, ctl := some m }
  else s.controlAck m jsUnknownOp []

/-- CONTROL_VERIFY (R130): the security engine finishes with the CONTROL at the front of its queue.
Assumption log 49 (DEDUCED). -/
def execControlVerify (s : State) : Host.Outcome State Fault Refusal :=
  match s.hly.ctlQueue with
  | [] => done s
  | m :: rest =>
    let s0 := { s with hly := { s.hly with ctlQueue := rest } }
    let (fail, checked) := s.ctlCheck m
    let s1 := if checked then s0.secCnt 2 else s0
    match fail with
    | some i =>
      let s2 := (s1.hlyCnt i).raise (if i = 17 then F.HLY_EVENTS_CTRL_AUTH_FAIL else F.HLY_EVENTS_CTRL_REPLAY)
      doneJ (if m.isEcho then s2 else s2.ledgerFree m.id)
    | none =>
      if m.isEcho then doneJ (s1.sendEcho m.port m.id m.car)
      else doneJ (((s1.wrN (R.HLY_CTRL_LAST_ID (beAt m.msg 34 1 % 8)) m.id).hlyCnt 16).startControl m)

/-! ### Tree images -/

/-- One node of an image (Table 5.1): pattern, FEATURE, CTRL, OUTPUT, LEFT, RIGHT. -/
structure ImNode where
  value : W32
  feature : Nat
  ctrl : Nat
  output : Nat
  left : Nat
  right : Nat
  deriving DecidableEq, Repr

/-- N_TREES, DEPTH, N_OUT and N_NODES of a tree image header (Table 5.10). -/
def imTrees (im : List Byte) : Nat := leAt im 6 2
def imDepth (im : List Byte) : Nat := leAt im 8 1
def imOut (im : List Byte) : Nat := leAt im 9 1
def imNodes (im : List Byte) : Nat := leAt im 12 4

/-- Node `k` of an image. -/
def imNode (im : List Byte) (k : Nat) : ImNode :=
  let o := 256 + 8 * imTrees im + 16 * k
  ⟨BitVec.ofNat 32 (leAt im o 4), leAt im (o + 4) 2, leAt im (o + 6) 1, leAt im (o + 7) 1, leAt im (o + 8) 4,
   leAt im (o + 12) 4⟩

/-- Whether a node is a leaf. -/
def ImNode.leaf (n : ImNode) : Bool := n.ctrl.testBit 0

/-- ROOT and TREE_DEPTH of tree `j`. -/
def imRoot (im : List Byte) (j : Nat) : Nat := leAt im (256 + 8 * j) 4
def imTreeDepth (im : List Byte) (j : Nat) : Nat := leAt im (260 + 8 * j) 1

/-- The nodes of the level below a level, left before right. -/
def childLevel (im : List Byte) (l : List Nat) : List Nat :=
  l.flatMap fun k =>
    let n := imNode im k
    if n.leaf then [] else [n.left, n.right]

/-- The levels of a tree, at most `fuel`, each in order. -/
def levelsFrom (im : List Byte) : Nat → List Nat → List (List Nat)
  | 0, _ => []
  | fuel + 1, l => if l.isEmpty then [] else l :: levelsFrom im fuel (childLevel im l)

/-- The levels of tree `j`, one more than TREE_DEPTH at most. -/
def treeLevels (im : List Byte) (j : Nat) : List (List Nat) := levelsFrom im (imTreeDepth im j + 1) [imRoot im j]

/-- Whether a node breaks R155 by itself. -/
def ImNode.bad (n : ImNode) (nOut : Nat) : Bool :=
  decide (8 ≤ n.ctrl) || decide (255 < n.feature) ||
  (if n.leaf then n.ctrl != 1 || n.feature != 0 || n.left != 0 || n.right != 0 || decide (nOut ≤ n.output) || !isFin n.value
   else n.output != 0 || n.left = n.right || (!n.ctrl.testBit 2 && isNan n.value))

/-- Whether BASE or FALLBACK at an offset breaks R155: finite below N_OUT, zero from there on. -/
def outsBad (im : List Byte) (off nOut : Nat) : Bool :=
  (List.range 16).any fun o =>
    let w := BitVec.ofNat 32 (leAt im (off + 4 * o) 4)
    if o < nOut then !isFin w else w != 0

/-- IMAGE_MALFORMED of a tree image (R155). -/
def treeMalformed (im : List Byte) : Bool :=
  let t := imTrees im
  let n := imNodes im
  let link := leAt im 10 1
  let trees := (List.range t).map (treeLevels im)
  let all := trees.flatMap fun l => l.flatMap fun x => x
  decide (im.length < 256) || leAt im 0 4 != 0x4D454554 || leAt im 4 2 != 1 || decide (3 < link) || decide (1 < leAt im 11 1) ||
  (link = 2 && imOut im = 1) || im.length != 256 + 8 * t + 16 * n || (slice im 144 112).any (· != 0) ||
  (List.range t).any (fun j => (slice im (261 + 8 * j) 3).any (· != 0)) ||
  (List.range t).any (fun j => imTreeDepth im j = 0 || (treeLevels im j).length != imTreeDepth im j) ||
  imDepth im != (List.range t).foldl (fun m j => max m (imTreeDepth im j)) 0 ||
  all.any (fun k => decide (n ≤ k) || (imNode im k).bad (imOut im)) ||
  all.length != n || all.eraseDups.length != n || outsBad im 16 (imOut im) || outsBad im 80 (imOut im)

/-- LIMIT_EXCEEDED of a tree image. -/
def treeOverLimit (im : List Byte) : Bool :=
  imTrees im = 0 || decide (4096 < imTrees im) || imDepth im = 0 || decide (32 < imDepth im) || imOut im = 0 ||
  decide (16 < imOut im) || imNodes im = 0 || decide (2 ^ 20 < imNodes im)

/-! ### Placing a tree model -/

/-- Pipe and first stage of a tree when pass 1 holds `t1` trees (R139). -/
def treePlace (t1 depth j : Nat) : Nat × Nat := if j < t1 then (j % 64, 0) else ((j - t1) % 64, 32 - depth)

/-- Node counts of the trees, level by level. -/
def levelCounts (im : List Byte) : List (List Nat) :=
  (List.range (imTrees im)).map fun j => (treeLevels im j).map (·.length)

/-- need(p, s, set) of R140, for the trees from `lo` to `hi - 1`. -/
def need (cs : List (List Nat)) (t1 depth lo hi p st : Nat) : Nat :=
  (List.range (hi - lo)).foldl (fun a i =>
    let (q, base) := treePlace t1 depth (lo + i)
    if q = p && base ≤ st then a + (cs.getD (lo + i) []).getD (st - base) 0 else a) 0

/-- The free stage-local indices of a stage of a pipe, lowest first (R140); a COLD load counts the active buffer's. -/
def State.freeSlots (s : State) (m : Nat) (cold : Bool) (p st : Nat) : List Nat :=
  (List.range (256 * s.stageBlocks st)).filter fun x =>
    let n := s.node (s.nodeSlot p st x)
    !n.inUse || (cold && n.slot = m && n.buf = s.activeBuf m)

/-- fits(set) of R140: the trees from 0 to `hi - 1`. Assumption log 54 (DEDUCED). -/
def State.fits (s : State) (m : Nat) (cold : Bool) (cs : List (List Nat)) (t1 depth hi : Nat) : Bool :=
  (List.range 64).all fun p => (List.range 32).all fun st =>
    decide (need cs t1 depth 0 hi p st ≤ (s.freeSlots m cold p st).length)

/-- T1 of R140; none when the model is refused with NO_SPACE. -/
def State.choosePass (s : State) (m : Nat) (cold : Bool) (cs : List (List Nat)) (depth : Nat) : Option Nat :=
  let t := cs.length
  if s.fits m cold cs t depth t then some t else
    let t1 := (((List.range t).reverse).find? fun n => s.fits m cold cs n depth n).getD 0
    if cdiv t1 64 < cdiv (t - t1) 64 || !s.fits m cold cs t1 depth t then none else some t1

/-- The stage-local index of the i-th node of level l of tree j (R140). -/
def State.nodeIdx (s : State) (m : Nat) (cold : Bool) (cs : List (List Nat)) (t1 depth j l i : Nat) : Nat :=
  let (p, base) := treePlace t1 depth j
  (s.freeSlots m cold p (base + l)).getD (need cs t1 depth 0 j p (base + l) + i) 0

/-- The nodes of one tree in store form, by global slot number. -/
def State.placeTree (s : State) (im : List Byte) (m buf : Nat) (cold : Bool) (cs : List (List Nat)) (t1 j : Nat) :
    List (Nat × Node) :=
  let d := imDepth im
  let (p, base) := treePlace t1 d j
  (treeLevels im j).zipIdx.flatMap fun (lv : List Nat × Nat) =>
    lv.1.zipIdx.map fun (x : Nat × Nat) =>
      let n := imNode im x.1
      let before := ((lv.1.take x.2).filter fun k => !(imNode im k).leaf).length
      let child (k : Nat) : Nat := if n.leaf then 0 else s.nodeIdx m cold cs t1 d j (lv.2 + 1) (2 * before + k)
      (s.nodeSlot p (base + lv.2) (s.nodeIdx m cold cs t1 d j lv.2 x.2),
       { value := n.value, feature := n.feature, cmpInt := n.ctrl.testBit 2, dfltRight := n.ctrl.testBit 1, leaf := n.leaf
         output := n.output, left := child 0, right := child 1, inUse := true, buf := buf, slot := m })

/-- A tree model placed in a buffer: the buffer and its nodes. -/
def State.placeModel (s : State) (im : List Byte) (m buf : Nat) (cold : Bool) (t1 : Nat) : ModelBuf × List (Nat × Node) :=
  let cs := levelCounts im
  let t := imTrees im
  let word (off o : Nat) : W32 := BitVec.ofNat 32 (leAt im (off + 4 * o) 4)
  ({ held := true, trees := t, t1 := t1, depth := imDepth im, nOut := imOut im, link := leAt im 10 1, shedMode := leAt im 11 1
     base := (List.range 16).map (word 16), fallback := (List.range 16).map (word 80), nNodes := imNodes im
     passes := if t1 = t then 1 else 2
     roots := (List.range t).map fun j => s.nodeIdx m cold cs t1 (imDepth im) j 0 0 },
   (List.range t).flatMap (s.placeTree im m buf cold cs t1))

/-! ### Neural images -/

/-- TILES, INTERVAL, COMPUTE and N_OUT of a neural image header (Table 6.7). -/
def niTiles (im : List Byte) : Nat := leAt im 6 2
def niInterval (im : List Byte) : Nat := leAt im 8 2
def niCompute (im : List Byte) : Nat := leAt im 10 2
def niOut (im : List Byte) : Nat := leAt im 12 1

/-- LIMIT_EXCEEDED of a neural image (R185). -/
def neuralOverLimit (im : List Byte) : Bool :=
  niTiles im = 0 || decide (64 < niTiles im) || niOut im = 0 || decide (16 < niOut im) || niInterval im = 0 ||
  niCompute im = 0 || decide (420 < niInterval im + niCompute im)

/-- NEURAL_IO: input site, output site, IN_PHASE and OUT_PHASE, four bytes each. Assumption log 57 (DEDUCED). -/
def neuralIo (plan : List Byte) : Option (Nat × Nat × Nat × Nat) :=
  match sectBytes plan 8 with
  | [l] => if l.length = 16 then some (siteField (leAt l 0 2), siteField (leAt l 4 2), leAt l 8 4, leAt l 12 4) else none
  | _ => none

/-- Whether the input and output slots agree with INTERVAL and COMPUTE: phases lie within INTERVAL, COMPUTE cycles
apart. Assumption log 57 (DEDUCED). -/
def ioAgrees (plan : List Byte) (interval compute : Nat) : Bool :=
  match neuralIo plan with
  | some (_, _, i, o) => decide (i < interval) && decide (o < interval) && (i + compute) % interval = o
  | none => false

/-- The C-tiles a plan uses. -/
def planCTiles (plan : List Byte) : Nat :=
  (((planAllTiles plan).map fun (t : TileRec) => t.site).eraseDups.filter fun x => !isM x).length

/-- IMAGE_MALFORMED of a neural image (R185). -/
def neuralMalformed (im : List Byte) : Bool :=
  let plan := im.drop 256
  decide (im.length < 256) || leAt im 0 4 != 0x4D454E52 || leAt im 4 2 != 1 || decide (1 < leAt im 13 1) || leAt im 14 2 != 0 ||
  (slice im 80 176).any (· != 0) || outsBad im 16 (niOut im) || planOverLimit plan || planMalformed plan (some 1) ||
  decide (niTiles im < planCTiles plan) || !ioAgrees plan (niInterval im) (niCompute im)

/-- C-tiles of the near-edge region (R216). -/
def State.regionTiles (s : State) : Nat :=
  ((List.range 2).flatMap fun d => (List.range 32).flatMap fun r => (List.range 48).filter fun c =>
    c % 3 != 2 && s.inRegion (siteOf d r c)).length

/-- Tiles of the region that buffers of NEURAL slots hold; a COLD load does not count the slot's active buffer. -/
def State.tilesHeld (s : State) (m : Nat) (cold : Bool) : Nat :=
  s.teu.bufs.foldl (fun n (e : Nat × ModelBuf) =>
    if cold && e.1 = 2 * m + s.activeBuf m then n else n + e.2.tiles) 0

/-- A neural model as its buffer. Assumption log 54 (DEDUCED). -/
def neuralModel (im : List Byte) : ModelBuf :=
  { held := true, neural := true, nOut := niOut im, shedMode := leAt im 13 1
    fallback := (List.range 16).map fun o => BitVec.ofNat 32 (leAt im (16 + 4 * o) 4)
    tiles := niTiles im, interval := niInterval im, compute := niCompute im, plan := im.drop 256 }

/-! ### MODEL_LOAD -/

/-- Whether a slot is declared, and whether it is NEURAL. -/
def State.slotDeclared (s : State) (m : Nat) : Bool := s.flag (F.SLOT_CFG_DECLARED m)
def State.slotNeural (s : State) (m : Nat) : Bool := s.flag (F.SLOT_CFG_KIND m)

/-- OP_STATUS of a model image for a slot, from LIMIT_EXCEEDED on (Table 5.11), and what is to be written into buffer
`buf`. Assumption log 54 (DEDUCED). -/
def State.judgeImage (s : State) (m buf : Nat) (single cold : Bool) (im : List Byte) :
    Nat × ModelBuf × List (Nat × Node) :=
  let no (k : Nat) : Nat × ModelBuf × List (Nat × Node) := (k, {}, [])
  if im.length < 256 then no 6
  else if s.slotNeural m then
    if neuralOverLimit im then no 5
    else if neuralMalformed im then no 6
    else if s.regionTiles < s.tilesHeld m cold + niTiles im then no 8
    else (0, neuralModel im, [])
  else if treeOverLimit im then no 5
  else if treeMalformed im then no 6
  else
    let cs := levelCounts im
    match s.choosePass m cold cs (imDepth im) with
    | some t1 =>
      if single && t1 < cs.length then no 7
      else
        let (b, ns) := s.placeModel im m buf cold t1
        (0, b, ns)
    | none => if single then no 7 else no 8

/-- RESULT of a MODEL_LOAD (Table 5.12). -/
def loadResult (slot : Nat) (b : ModelBuf) (version : Nat) : List Byte :=
  beBytes 1 slot ++ beBytes 1 b.passes ++ beBytes 2 b.trees ++ beBytes 2 b.t1 ++ beBytes 2 0 ++ beBytes 4 b.nNodes ++
    beBytes 4 version

/-- The slot no longer holds a model (R158 step 1). Assumption log 55 (DEDUCED). -/
def State.emptySlot (s : State) (m : Nat) : State :=
  let s1 := (s.sf (F.SLOT_STATUS_LOADED m) 0).sf (F.SLOT_STATUS_PASSES m) 0
  (s1.wrN (R.SLOT_TREES m) 0).wrN (R.SLOT_NODES m) 0

/-- A refused MODEL_LOAD (R156). -/
def State.refuseLoad (s : State) (o : LoadOp) (slot status : Nat) (rest : List LoadOp) : State :=
  let s1 := { s with teu := { s.teu with loads := rest } }
  ((s1.teuCnt 10).raise F.TEU_EVENTS_LOAD_REFUSED).controlAck o.ctl status
    (loadResult slot {} (s.rd (R.SLOT_VERSION slot)).toNat)

/-- MODEL_LOAD (R153 to R156, R185): the MODEL_LOAD at the front reads its image, is checked in the order of Table 5.11,
and is refused or waits for its switch. `ext` is what reads of host memory or of another module returned. -/
def execModelLoad (ext : Option (List Byte)) (s : State) : Host.Outcome State Fault Refusal :=
  match s.teu.loads with
  | [] => done s
  | o :: rest =>
    if o.checked then done s else
    let b := o.ctl.msg
    let m := beAt b 44 1 % 16
    let flags := beAt b 45 1
    let len := beAt b 56 4
    let cold := flags.testBit 1 || s.flag (F.SLOT_STATUS_FAULTED m)
    if bodyLenOf b ≠ 172 || 16 ≤ beAt b 44 1 || 4 ≤ flags || beAt b 46 2 ≠ 0 then done (s.refuseLoad o m 1 rest)
    else if !s.slotDeclared m then done (s.refuseLoad o m 2 rest)
    else if (if s.slotNeural m then 16777472 else 16810240) < len then done (s.refuseLoad o m 3 rest)
    else
      let (img, s1) := s.dmaRead (beAt b 48 8) len ext
      match img with
      | none => done (s1.refuseLoad o m 3 rest)
      | some im =>
        if Config.sha384 im ≠ slice b 60 48 then done (s1.refuseLoad o m 4 rest)
        else
          let (st, mb, ns) := s1.judgeImage m (1 - s1.activeBuf m) (flags.testBit 0) cold im
          if st ≠ 0 then done (s1.refuseLoad o m st rest)
          else
            let o1 : LoadOp := { o with slot := m, checked := true, cold := cold, model := mb, nodes := ns }
            let s2 := ({ s1 with teu := { s1.teu with loads := o1 :: rest } }).sf (F.SLOT_STATUS_LOADING m) 1
            done (if cold then (s2.advanceTo (s2.now + 1)).emptySlot m else s2)

/-! ### The switch -/

/-- The run of the neural plan in a buffer. -/
def neuralKey (m b : Nat) : Nat := 1 + 2 * m + b

/-- Frees a buffer: its nodes, or its plan's tiles, which are zeroed (R157, R231). -/
def State.dropBuf (s : State) (m b : Nat) : State :=
  let s1 := match s.run? (neuralKey m b) with
    | some r =>
      (s.zeroSites (r.tiles.map fun (e : Nat × Tile) => (e.1, e.2.furled))).modGrid fun g =>
        { g with runs := tdel (neuralKey m b) g.runs }
    | none => s
  (s1.freeBuf m b).syncFreeMin

/-- A neural plan begins to run (R218). Assumption log 58 (DEDUCED). -/
def State.startNeural (s : State) (m b : Nat) (mb : ModelBuf) : State :=
  s.setRun (neuralKey m b)
    { neural := true, slot := m, buf := b, owner := planOwner mb.plan, from_ := s.arith + 1, interval := mb.interval
      tiles := runTiles mb.plan 0 0, bucket := bucketVals mb.plan 0, dims := bucketVals mb.plan 0, lists := planLists mb.plan }

/-- A model is written into a buffer and becomes the slot's active one (R157 steps 2 and 3).
Assumption log 126 (DEDUCED). -/
def State.activate (s : State) (m b : Nat) (mb : ModelBuf) (ns : List (Nat × Node)) : State :=
  let s1 := ({ s with teu := { s.teu with nodes := ns.foldl (fun t (e : Nat × Node) => tset (fun _ => {}) t e.1 e.2) s.teu.nodes } }).setBuf
    m b mb
  let s2 := if mb.neural then s1.startNeural m b mb else s1
  let s3 := ((s2.wrN (R.SLOT_STATUS m) (2 ^ 31)).sf (F.SLOT_STATUS_ACTIVE_BUF m) b).sf (F.SLOT_STATUS_PASSES m) mb.passes
  let s4 := ((s3.sf (F.SLOT_STATUS_DEPTH m) mb.depth).sf (F.SLOT_STATUS_N_OUT_M1 m) (mb.nOut - 1)).sf
    (F.SLOT_STATUS_LINK m) mb.link
  (((s4.wrN (R.SLOT_TREES m) (mb.t1 * 65536 + mb.trees)).wrN (R.SLOT_NODES m) mb.nNodes).addCtr 32 (R.SLOT_VERSION m) 1).syncFreeMin

/-- MODEL_SWITCH (R157, R158): once the buffers the load needs are bound to no request, the model is written and becomes
active, and the CONTROL_ACK follows in the next cycle. Assumption log 56 (DEDUCED). -/
def execModelSwitch (s : State) : Host.Outcome State Fault Refusal :=
  match s.teu.loads with
  | [] => done s
  | o :: rest =>
    let m := o.slot
    let old := s.activeBuf m
    let b := 1 - old
    if !o.checked || s.bufBound m b || (o.cold && s.bufBound m old) then done s else
    let s0 := { s with teu := { s.teu with loads := rest } }
    let s1 := s0.dropBuf m b
    let s2 := if o.cold then s1.dropBuf m old else s1
    let s3 := s2.activate m b o.model o.nodes
    let was := s3.modelBuf m old
    let s4 := if was.held then s3.setBuf m old { was with leaving := true } else s3
    let s5 := if o.model.passes = 2 then s4.raise F.TEU_EVENTS_PASS2_PLACED else s4
    let s6 := (s5.teuCnt 9).advanceTo (s5.now + 1)
    done (s6.controlAck o.ctl 0 (loadResult m o.model (s6.rd (R.SLOT_VERSION m)).toNat))

/-- BUFFER_FREED (R157 step 5): nothing is bound to an old buffer any longer. -/
def execBufferFreed (m : Fin 16) (b : Fin 2) (s : State) : Host.Outcome State Fault Refusal :=
  if (s.modelBuf m.val b.val).leaving && !s.bufBound m.val b.val then doneG (s.dropBuf m.val b.val) else done s

/-! ### Scrubbers -/

/-- TILE_SCRUB (R238): the scrubber of a site's SRAM reads its next row and meets nothing (0), one symbol (1), two
symbols (2) or more (3) in error. Assumption log 75 (DEDUCED). -/
def execTileScrub (die : Fin 4) (row : Fin 32) (col : Fin 48) (err : Fin 4) (s : State) : Host.Outcome State Fault Refusal :=
  if s.gf (F.MEM_SCRUB_CTRL_TILE_INTERVAL die.val) = 0 then done s else
  let site := siteN die row col
  let r := tget (fun _ => 0) s.grid.scrubRow site
  let s1 := s.modGrid fun g => { g with scrubRow := tset (fun _ => 0) g.scrubRow site ((r + 1) % 8192) }
  if err.val = 0 then done s1
  else if err.val = 1 ∨ (err.val = 2 ∧ isM site) then done ((s1.memCnt die.val 8).raise (F.MEM_EVENTS_SCRUB_CORR die.val))
  else doneF (s1.uncorrRow site (sramKind site) r)

/-- The module-local HBM offset of an address inside a stack (R31). -/
def stackOff (stack a : Nat) : Nat :=
  stack / 2 * 0x2400000000 + a / 0x1000 * 0x2000 + stack % 2 * 0x1000 + a % 0x1000

/-- Bytes of a stack (R245). -/
def stackSize : Nat := 72 * 2 ^ 30

/-- HBM_PATROL (R246): the patrol scrubber of a stack reads its next 256-byte unit. `errs` are what each of its 64-byte
units meets: nothing (0), an error corrected and written back (1), or an uncorrectable one (2); `ondie` how many on-die
corrections the stack reports with it. Assumption log 75 (DEDUCED), 76 (DEDUCED). -/
def execHbmPatrol (stack : Fin 8) (errs : Vector (Fin 3) 4) (ondie : Byte) (s : State) : Host.Outcome State Fault Refusal :=
  let d := stack.val / 2
  if s.gf (F.MEM_SCRUB_CTRL_HBM_INTERVAL d) = 0 then done s else
  let u := tget (fun _ => 0) s.grid.patrol stack.val
  let next := (u + 1) % (stackSize / 256)
  let off := stackOff stack.val (256 * u)
  let s1 := s.modGrid fun g => { g with patrol := tset (fun _ => 0) g.patrol stack.val next }
  let s2 := if s.holdDirty off then s1 else
    errs.toList.zipIdx.foldl (fun s (e : Fin 3 × Nat) =>
      s.memErr (off + 64 * e.2) (if e.1.val = 1 then 3 else if e.1.val = 2 then 4 else 0)) s1
  let s3 := if next = 0 then s2.memCnt d 9 else s2
  done (s3.memCnt d 7 ondie.toNat)

end Sys2Proof.Machine
end

