-- ==== Sys2Proof/Machine/RigLink.lean ====
section
/-! DEFINITION. The Rigging's link layer and attestation: training and retry (R321), leaving UP (R324), acceptance,
acknowledgement and re-sending (R323), credits (R325), timeouts (R336), HELLO and PROVE (R427, R428), link keys (R429,
R430). -/

namespace Sys2Proof.Machine

/-- LINK_STATE of a port. -/
def State.linkState (s : State) (n : Nat) : Nat := s.gf (F.RIGP_STATUS_LINK_STATE n)

/-- A port enters a LINK_STATE. -/
def State.setLink (s : State) (n st : Nat) : State :=
  (s.sf (F.RIGP_STATUS_LINK_STATE n) st).modRig n fun r => { r with since := s.now }

/-- REPLAY_OCC follows the replay buffer. -/
def State.syncReplay (s : State) (n : Nat) : State :=
  s.sf (F.RIGP_STATUS_REPLAY_OCC n) (s.rigPort n).replay.length

/-- What waits for ended operations goes on: the update log, the DMA queues, the census and adaptation engine. -/
def State.opsEnded (s : State) : State := (((s.issueWaiting.logAdvance).dmaPump).qntPump).syncOps

/-- A port sent packets: issuers that waited for room go on. -/
def State.roomMade (s : State) : Host.Outcome State Fault Refusal :=
  if s.rig.waiting.isEmpty then done s else doneJ s.opsEnded

/-- An outstanding operation ends locally (R324, R331, R336). -/
def State.endOp (s : State) (txn : Nat) (o : OutOp) (status : Nat) : State :=
  let s1 := { s with rig := { s.rig with ops := tdel txn s.rig.ops } }
  let a := o.pkt.address.toNat % 2 ^ 56
  (s1.opError status a).endFor o.issuer status [] 0 a o.pkt.payload

/-- A request queued on a port that left UP is routed again (R324, R331). Assumption log 97 (DEDUCED). -/
def State.reroute (s : State) (p : Pkt) : State :=
  match tfind p.txn s.rig.ops with
  | none => s
  | some o =>
    let reach := if o.issuer.bowsprit then 0xFFFF else 0xFFFFFFFF
    match routePort (s.routeEntry o.bank p.dst.toNat) s.upMask reach p.address.toNat with
    | none => s.endOp p.txn o stUnreachable
    | some n =>
      ({ s with rig := { s.rig with ops := tins p.txn { o with port := n } s.rig.ops } }).enqueue n p

/-- A port leaves UP for another state (R324). -/
def State.leaveUp (s : State) (n st : Nat) : State :=
  let r := s.rigPort n
  let unsent := r.q0 ++ r.q1
  let lost := s.rig.ops.filter fun e => e.2.port = n && !(unsent.any fun p => p.txn = e.1)
  let s1 := ((s.setLink n st).cnt (R.RIGP_COUNT n 13)).raise (F.RIGP_EVENTS_LINK_DOWN n)
  let s2 := (s1.modRig n fun r => { since := r.since }).syncReplay n
  let s3 := lost.foldl (fun s e => s.endOp e.1 e.2 stLinkLost) s2
  (unsent.foldl (fun s p => s.reroute p) s3).opsEnded

/-- A port goes down: out of UP under R324, or out of training. -/
def State.rigDown (s : State) (n : Nat) : State :=
  if s.linkState n = lsUp then s.leaveUp n lsDown
  else if s.linkState n = lsTraining ∨ s.linkState n = lsAttesting then s.setLink n lsDown
  else s

/-! ### Attestation -/

/-- An attestation frame: length of the body, body, CRC-32C over both, in network order (R427).
Assumption log 102 (DEDUCED). -/
def attFrame (body : List Byte) : List Byte :=
  let l := beBytes 4 body.length ++ body
  l ++ beBytes 4 (crc32c l)

/-- The body of an attestation frame, when its length and CRC hold. Assumption log 102 (DEDUCED). -/
def attBody (f : List Byte) : Option (List Byte) :=
  if 8 ≤ f.length ∧ beAt f 0 4 = f.length - 8 ∧ crc32c (f.take (f.length - 4)) = beAt f (f.length - 4) 4 then
    some ((f.drop 4).take (f.length - 8))
  else none

/-- The prime of the P-384 field and the constant b of the curve (FIPS 186-5). Assumption log 50 (PRESUMED). -/
def p384Prime : Nat := 2 ^ 384 - 2 ^ 128 - 2 ^ 96 + 2 ^ 32 - 1
def p384B : Nat :=
  0xB3312FA7E23EE7E4988E056BE3F82D19181D9C6EFE8141120314088F5013875AC656398D8A2ED19D2A85C8EDD3EC2AEF

/-- Whether a pair of coordinates is a point of P-384, and not the point at infinity. -/
def p384Valid (x y : Nat) : Bool :=
  decide (x < p384Prime) && decide (y < p384Prime) &&
  decide (y * y % p384Prime = (x * x * x + (p384Prime - 3) * x + p384B) % p384Prime)

/-- Whether the random source yields (R431). -/
def State.rngOk (s : State) : Bool := s.flag F.SEC_STATUS_RNG_OK

/-- Whether a HELLO body is well formed (Table 15.7). -/
def helloOk (b : List Byte) : Bool :=
  decide (156 ≤ b.length) && beAt b 0 1 = 1 && decide (beAt b 1 1 ≤ 1) && decide (beAt b 2 2 < 4096) && decide (beAt b 4 1 ≤ 1) &&
  beAt b 5 3 = 0 && beAt b 154 2 = 0 && beAt b 152 2 != 0 && decide (beAt b 152 2 ≤ 16384) &&
  b.length = 156 + beAt b 152 2 && p384Valid (beAt b 56 48) (beAt b 104 48)

/-- NONCE of a HELLO, as a big-endian number. -/
def helloNonce (b : List Byte) : Nat := beAt b 8 48

/-- The port draws a nonce and an ephemeral key pair and sends HELLO (R427 step 1). -/
def State.sendHello (s : State) (n : Nat) : State :=
  let (nonce, s1) := s.random 384
  let (priv, s2) := s1.random 384
  let chain := s.boot.fuse.chain
  let body := beBytes 1 1 ++ beBytes 1 0 ++ beBytes 2 s.modnum ++ beBytes 1 (s.gf (F.RIGP_CFG_ENC n)) ++ beBytes 3 0 ++
    beBytes 48 nonce ++ slice (Config.p384Public priv) 0 96 ++ beBytes 2 chain.length ++ beBytes 2 0 ++ chain
  (s2.modRig n fun r => { r with hello := body, priv := priv, peer := [], th := [] }).emit (.attest n 1 (attFrame body))

/-- Reasons of Table 15.8. -/
abbrev arTimeout : Nat := 1
abbrev arEntropy : Nat := 2
abbrev arMessage : Nat := 3
abbrev arAnchor : Nat := 4
abbrev arSignature : Nat := 5
abbrev arDenied : Nat := 6
abbrev arRole : Nat := 8
abbrev arNumber : Nat := 9
abbrev arEnc : Nat := 10

/-- A failed attestation (R428, R432): the state entered, the port's event, ATTEST_ERR_REC, SEC_EVENTS and the count. The
ephemeral private key is zeroised. Assumption log 103 (DEDUCED). -/
def State.attestFail (s : State) (n reason : Nat) : State :=
  let claimed := if (s.rigPort n).peer.isEmpty then 0 else beAt (s.rigPort n).peer 2 2 % 4096
  let s1 := if s.flag F.SEC_EVENTS_ATTEST_FAILED then s
    else s.wrN R.SEC_ATTEST_ERR_REC (reason * 2 ^ 28 + n * 2 ^ 16 + claimed)
  let s2 := (s1.secCnt 4).raise F.SEC_EVENTS_ATTEST_FAILED
  let s3 := s2.modRig n fun r => { since := r.since }
  if reason ≤ 7 then (s3.setLink n lsAttestFailed).raise (F.RIGP_EVENTS_ATTEST_FAILED n)
  else if reason ≤ 9 then (s3.setLink n lsMiswired).raise (F.RIGP_EVENTS_MISWIRED n)
  else (s3.setLink n lsEncMismatch).raise (F.RIGP_EVENTS_ENC_MISMATCH n)

/-- The limit of an attestation (R428): 7,500,000 CK_TICK cycles from entering ATTESTING. -/
def State.attestLimit (s : State) (n : Nat) : Nat := (s.rigPort n).since + 32 * 7500000

/-- The keys of both directions (R429): HKDF-SHA384 with salt TH over the x-coordinate of the ECDH product. -/
def RigPort.keyed (r : RigPort) : RigPort :=
  let z := (Config.p384Shared r.priv (slice r.peer 56 96)).take 48
  let lo := Config.hkdf z r.th [0x59, 0x52, 0x20, 0x6C, 0x6F, 0x77] 36
  let hi := Config.hkdf z r.th [0x59, 0x52, 0x20, 0x68, 0x69, 0x67, 0x68] 36
  let dir (k : List Byte) : Crypt := { key := k.take 32, salt := k.drop 32 }
  if r.low then { r with tx := dir lo, rx := dir hi } else { r with tx := dir hi, rx := dir lo }

/-- A port enters UP (R321, R428): its link layer starts afresh, and it has keys when both ENC flags are 1. -/
def State.enterUp (s : State) (n : Nat) : State :=
  let r := s.rigPort n
  let k := if s.flag (F.RIGP_CFG_ENC n) then r.keyed else r
  let s1 := s.modRig n fun _ => { tx := k.tx, rx := k.rx }
  ((s1.setLink n lsUp).sf (F.RIGP_STATUS_PEER_SEEN n) (beAt r.peer 2 2 % 4096)).secCnt 3

/-- RIG_PORT_TRAINED (R321, R427): lane training and FEC alignment complete; the port enters ATTESTING and sends HELLO. -/
def execRigPortTrained (n : Fin 32) (s : State) : Host.Outcome State Fault Refusal :=
  if s.linkState n ≠ lsTraining || s.pwr.serdesLost then done s else
  let s1 := s.setLink n lsAttesting
  done (if s.rngOk then s1.sendHello n else s1.attestFail n arEntropy)

/-- HELLO (R427): the peer's HELLO arrives; TH is formed and PROVE is sent, or both ends restart on equal nonces.
Assumption log 102 (DEDUCED). -/
def execHello (n : Fin 32) (frame : List Byte) (s : State) : Host.Outcome State Fault Refusal :=
  let r := s.rigPort n
  if s.linkState n ≠ lsAttesting || !r.peer.isEmpty then done s
  else if s.attestLimit n < s.now then done (s.attestFail n arTimeout)
  else if !s.rngOk then done (s.attestFail n arEntropy)
  else match attBody frame with
    | none => done (s.attestFail n arMessage)
    | some b =>
      if !helloOk b then done (s.attestFail n arMessage)
      else if helloNonce b = helloNonce r.hello then done (s.sendHello n)
      else
        let low := decide (helloNonce r.hello < helloNonce b)
        let th := Config.sha384 (if low then r.hello ++ b else b ++ r.hello)
        let sig := Config.ecdsaSign (s.boot.fuse.idKey.getD 0) (Config.sha384 (th ++ beBytes 1 (b2n (!low))))
        let s1 := s.modRig n fun r => { r with peer := b, th := th, low := low }
        done (s1.emit (.attest n 2 (attFrame (beBytes 1 2 ++ beBytes 3 0 ++ slice sig 0 96))))

/-- The reason a peer's PROVE fails for (Table 15.8), from BAD_MESSAGE on. Assumption log 103 (DEDUCED). -/
def State.proveReason (s : State) (n : Nat) (frame : List Byte) : Option Nat :=
  let r := s.rigPort n
  let chain := r.peer.drop 156
  match attBody frame with
  | none => some arMessage
  | some b =>
    if b.length ≠ 100 || beAt b 0 1 ≠ 2 || beAt b 1 3 ≠ 0 then some arMessage
    else match Config.chainKey s.boot.fuse.rootHash chain with
      | none => some arAnchor
      | some (x, y) =>
        if !signatureOk x y (Config.sha384 (r.th ++ beBytes 1 (b2n r.low))) (slice b 4 96) then some arSignature
        else if s.boot.denied.contains (Config.leafHash chain) then some arDenied
        else if s.gf (F.RIGP_CFG_ROLE n) ≠ beAt r.peer 1 1 + 1 then some arRole
        else if s.gf (F.RIGP_CFG_ROLE n) = 1 && s.gf (F.RIGP_CFG_PEER n) ≠ beAt r.peer 2 2 then some arNumber
        else if s.gf (F.RIGP_CFG_ENC n) ≠ beAt r.peer 4 1 then some arEnc
        else none

/-- PROVE (R428, R429): the peer is checked; the port enters UP with derived keys, or a failure state. -/
def execProve (n : Fin 32) (frame : List Byte) (s : State) : Host.Outcome State Fault Refusal :=
  if s.linkState n ≠ lsAttesting || (s.rigPort n).peer.isEmpty then done s
  else if s.attestLimit n < s.now then done (s.attestFail n arTimeout)
  else if !s.rngOk then done (s.attestFail n arEntropy)
  else match s.proveReason n frame with
    | some k => done (s.attestFail n k)
    | none => done (s.enterUp n)

/-- ATTEST_TIMEOUT (R428). -/
def execAttestTimeout (n : Fin 32) (s : State) : Host.Outcome State Fault Refusal :=
  if s.linkState n ≠ lsAttesting then done s else
  done ((s.advanceTo (s.attestLimit n)).attestFail n arTimeout)

/-- Whether the start failed: every port is then held down (R455). -/
def State.startFailed (s : State) : Bool := s.modState = msFailed && s.boot.readyAt.isNone

/-- RIG_PORT_RETRY (R321): one second after it entered its state, a port begins TRAINING again. -/
def execRigPortRetry (n : Fin 32) (s : State) : Host.Outcome State Fault Refusal :=
  if s.linkState n < lsDown || lsAttestFailed < s.linkState n || s.startFailed then done s else
  done ((s.advanceTo ((s.rigPort n).since + 32 * 75000000)).setLink n lsTraining)

/-- RIG_PORT_DOWN (R321, R324): a port loses its alignment. -/
def execRigPortDown (n : Fin 32) (s : State) : Host.Outcome State Fault Refusal := doneJ (s.rigDown n)

/-! ### Arrival of packets -/

/-- A packet is discarded by the link layer (R323 step 2): one LINK_NAK until the expected number arrives. -/
def State.nak (s : State) (n : Nat) : State :=
  if (s.rigPort n).nakSent then s else
  ((s.sendCtl n 0x21 (s.rigPort n).rxSeq).cnt (R.RIGP_COUNT n 5)).modRig n fun r => { r with nakSent := true }

/-- A cumulative LINK_ACK is sent (R323 step 3). -/
def State.ackNow (s : State) (n : Nat) : State :=
  (s.sendCtl n 0x20 (((s.rigPort n).rxSeq + 4095) % 4096)).modRig n fun r => { r with unacked := 0 }

/-- VC of a packet (R322). -/
def Pkt.channel (p : Pkt) : Nat := if p.opcode = opResponse then 2 else if p.flags.testBit 2 then 1 else 0

/-- LINK_CREDIT for the buffer space of a packet taken (Table 12.5). Assumption log 99 (DEDUCED). -/
def State.credit (s : State) (n : Nat) (p : Pkt) : State :=
  s.sendCtl n 0x22 (p.credits (s.flag (F.RIGP_CFG_ENC n)) * 1024 ^ p.channel)

/-- A request or response packet arrives on a port with its link check and GCM tag good: accepted when its LINK_SEQ is
the next one (R323), else discarded. Assumption log 99 (DEDUCED). -/
def State.accept (s : State) (n : Nat) (p : Pkt) : Bool × State :=
  if s.linkState n ≠ lsUp then (false, s) else
  let s0 := (s.rekey n false).crossed n false
  if p.linkSeq ≠ (s0.rigPort n).rxSeq then (false, s0.nak n) else
  let s1 := s0.modRig n fun r =>
    { r with
      rxSeq := (r.rxSeq + 1) % 4096, nakSent := false, unacked := r.unacked + 1
      ackFrom := if r.unacked = 0 then s.now else r.ackFrom }
  let s2 := ((s1.cnt (R.RIGP_COUNT n 1)).addCtr 48 (R.RIGP_COUNT n 3) p.payload.length).credit n p
  (true, if 64 ≤ (s2.rigPort n).unacked then s2.ackNow n else s2)

/-- LINK_CHECK_FAIL (R323, R356): a packet fails its link check (`why` 0) or its GCM tag (1), or arrives out of LINK_SEQ
order (2). -/
def execLinkCheckFail (n : Fin 32) (why : Fin 3) (s : State) : Host.Outcome State Fault Refusal :=
  if s.linkState n ≠ lsUp then done s else
  let s0 := (s.rekey n false).crossed n false
  let s1 := if why.val = 0 then s0.cnt (R.RIGP_COUNT n 4) else if why.val = 1 then s0.cnt (R.RIGP_COUNT n 9) else s0
  done (s1.nak n)

/-- A re-send begins from an index of the replay buffer; RETRY_LIMIT of them in a row without an advance take the port
down (R323 steps 4 and 5). Assumption log 100 (DEDUCED). -/
def State.resend (s : State) (n i : Nat) : State :=
  let r := s.rigPort n
  if max 1 (s.gf F.RIG_CTRL_RETRY_LIMIT) ≤ r.resends then
    (s.leaveUp n lsDown).raise (F.RIGP_EVENTS_RETRY_LIMIT n)
  else
    let s1 := (s.modRig n fun r => { r with resends := r.resends + 1, advAt := s.now }).cnt (R.RIGP_COUNT n 6)
    (r.replay.drop i).foldl (fun s p => s.sendWire n p) s1

/-- The place of a LINK_SEQ in the replay buffer. -/
def seqIndex (seq : Nat) : List Pkt → Option Nat
  | [] => none
  | p :: t => if p.linkSeq = seq then some 0 else (seqIndex seq t).map (· + 1)

/-- LINK_ACK (R323): acknowledged packets leave the replay buffer. -/
def execLinkAck (n : Fin 32) (seq : BitVec 12) (s : State) : Host.Outcome State Fault Refusal :=
  if s.linkState n ≠ lsUp then done s else
  let s0 := (s.rekey n false).crossed n false
  match seqIndex seq.toNat (s0.rigPort n).replay with
  | none => done s0
  | some i =>
    let s1 := s0.modRig n fun r => { r with replay := r.replay.drop (i + 1), advAt := s.now, resends := 0 }
    ((s1.pump n).syncReplay n).roomMade

/-- LINK_NAK (R323): the transmitter re-sends from the named packet. Assumption log 100 (DEDUCED). -/
def execLinkNak (n : Fin 32) (seq : BitVec 12) (s : State) : Host.Outcome State Fault Refusal :=
  if s.linkState n ≠ lsUp then done s else
  let s0 := (s.rekey n false).crossed n false
  match seqIndex seq.toNat (s0.rigPort n).replay with
  | none => done s0
  | some i => doneJ (s0.resend n i)

/-- LINK_CREDIT (R325): credits return for VC0, VC1 and VC2; a 64 KiB buffer has 1,024 of them. -/
def execLinkCredit (n : Fin 32) (aux : W32) (s : State) : Host.Outcome State Fault Refusal :=
  if s.linkState n ≠ lsUp then done s else
  let s0 := (s.rekey n false).crossed n false
  let a := aux.toNat
  ((s0.modRig n fun r =>
    { r with
      cred0 := min 1024 (r.cred0 + bits a 0 10), cred1 := min 1024 (r.cred1 + bits a 10 10)
      cred2 := min 1024 (r.cred2 + bits a 20 10) }).pump n).roomMade

/-- ACK_TIMER (R323): 32 CK_MEM cycles with an unacknowledged accepted packet. -/
def execAckTimer (n : Fin 32) (s : State) : Host.Outcome State Fault Refusal :=
  let r := s.rigPort n
  if s.linkState n ≠ lsUp || r.unacked = 0 then done s else
  done ((s.advanceTo (r.ackFrom + 128)).ackNow n)

/-- REPLAY_TIMEOUT (R323): no LINK_ACK has advanced for 2,048 CK_MEM cycles. Assumption log 100 (DEDUCED). -/
def execReplayTimeout (n : Fin 32) (s : State) : Host.Outcome State Fault Refusal :=
  let r := s.rigPort n
  if s.linkState n ≠ lsUp || r.replay.isEmpty then done s else
  doneJ ((s.advanceTo (r.advAt + 4 * 2048)).resend n 0)

/-- REKEY (R430): a direction's count has come to a multiple of 2^40. -/
def execRekey (n : Fin 32) (isTx : Bool) (s : State) : Host.Outcome State Fault Refusal :=
  if s.linkState n ≠ lsUp || !s.flag (F.RIGP_CFG_ENC n) then done s else done (s.rekey n isTx)

/-- Whether the request of an operation still waits in its port's transmit queue. Assumption log 97 (DEDUCED). -/
def State.unsent (s : State) (txn : Nat) (o : OutOp) : Bool :=
  ((s.rigPort o.port).q0 ++ (s.rigPort o.port).q1).any fun p => decide (p.txn = txn)

/-- OPERATION_TIMEOUT (R336): an operation without a response ends with TIMEOUT, RIG_TIMEOUT after its request was
sent. -/
def execOperationTimeout (txn : W32) (s : State) : Host.Outcome State Fault Refusal :=
  match tfind txn.toNat s.rig.ops with
  | none => done s
  | some o => if s.unsent txn.toNat o then done s else doneJ (((s.advanceTo o.limit).endOp txn.toNat o stTimeout).opsEnded)

end Sys2Proof.Machine
end

