-- ==== Sys2Proof/Machine/Recovery.lean ====
section
/-! DEFINITION. Recovery and capacity (R382 to R412): heartbeats, fencing, checkpoints and epochs, log replay, the crow's
nest and its lease, re-mapping, table holds, leaving. What other modules hold of the crow's nest state, and which module a
decision falls on, are operands: the spec lays out none of that state but the lease word. -/

namespace Sys2Proof.Machine

/-- MODE of REC_CFG (Table 14.5). -/
abbrev mdActive : Nat := 0
abbrev mdStandby : Nat := 1
abbrev mdLeft : Nat := 2

/-- This module's MODE. -/
def State.recMode (s : State) : Nat := s.gf F.REC_CFG_MODE

/-- Changes the recovery state. -/
def State.modRec (s : State) (f : Rec → Rec) : State := { s with recov := f s.recov }

/-- Whether this module acts as crow's nest. -/
def State.holder (s : State) : Bool := s.flag F.REC_NEST_STATUS_HOLDER

/-- Addresses of the replicas in use (R398). -/
def State.replicas (s : State) : List Nat :=
  (List.range 3).filterMap fun k =>
    if s.flag (F.REC_REPLICA_VALID k) then some (s.gf (F.REC_REPLICA_ADDRESS k) % 2 ^ 56) else none

/-- A released 8-byte atomic of the management core: in the module's own memory, or a packet. -/
def State.mgmtAtomic (s : State) (op addr operand compare : Nat) : State :=
  if s.isOwn (gModule addr) then (s.atomicLocal .mgmt op addr 8 operand compare false).2.2
  else s.issue .mgmt 0 op addr 8 0 2
    (if op = opCas then leBytes 8 compare ++ leBytes 8 operand else leBytes 8 operand)

/-- A read of the management core whose data the command brings with it. -/
def State.mgmtRead (s : State) (addr : Nat) : State :=
  if s.isOwn (gModule addr) then (s.localRead .mgmt addr 8 false).2.2.2 else s.issue .mgmt 0 opRead addr 8 0 1 []

/-! ### Detecting a failure -/

/-- HB_PERIOD as it acts (Table 14.14). -/
def State.hbPeriod (s : State) : Nat := 32 * max 7500 (s.gf F.REC_HEARTBEAT_HB_PERIOD)

/-- HEARTBEAT (R386): an ACTIVE or STANDBY module adds 1 to its word in each replica. -/
def execHeartbeat (s : State) : Host.Outcome State Fault Refusal :=
  if s.recov.hbStopped || mdStandby < s.recMode || !s.ready then done s else
  let s0 := s.advanceTo (s.recov.hbAt + s.hbPeriod)
  let s1 := s0.modRec fun r => { r with hbAt := s0.now }
  doneF (s1.replicas.foldl (fun s a => s.mgmtAtomic opAdd (a + Config.nestWord 0 s.modnum) 1 0) s1)

/-- The crow's nest declares a module failed (R386). -/
def State.declareFailed (s : State) (m : Nat) : State :=
  if s.recov.failedMods.contains m then s
  else ((s.recCnt 3).raise F.REC_EVENTS_PEER_FAILED).modRec fun r => { r with failedMods := r.failedMods ++ [m] }

/-- One heartbeat word as the crow's nest reads it. -/
def State.seeHeartbeat (s : State) (m w : Nat) : State :=
  match tfind m s.recov.hbSeen with
  | some (old, k) =>
    if old = w then
      let s1 := (s.recCnt 11).modRec fun r => { r with hbSeen := tins m (w, k + 1) r.hbSeen }
      if max 1 (s.gf F.REC_HEARTBEAT_HB_MISS) ≤ k + 1 then s1.declareFailed m else s1
    else s.modRec fun r => { r with hbSeen := tins m (w, 0) r.hbSeen }
  | none => s.modRec fun r => { r with hbSeen := tins m (w, 0) r.hbSeen }

/-- HEARTBEAT_CHECK (R386): the holder reads the heartbeat words, `words` by module; `declared` are modules whose failure
doorbell arrived or that the operator declares failed. Assumption log 111 (DEDUCED). -/
def execHeartbeatCheck (words : List (ModNum × W64)) (declared : List ModNum) (s : State) :
    Host.Outcome State Fault Refusal :=
  if !s.holder then done s else
  let s0 := s.advanceTo (s.recov.hbCheckAt + s.hbPeriod)
  let s1 := s0.modRec fun r => { r with hbCheckAt := s0.now }
  let s2 := s1.replicas.foldl (fun s a => words.foldl (fun s (x : ModNum × W64) =>
    s.mgmtRead (a + Config.nestWord 0 x.1.toNat)) s) s1
  let s3 := words.foldl (fun s (x : ModNum × W64) => s.seeHeartbeat x.1.toNat x.2.toNat) s2
  doneF (declared.foldl (fun s m => s.declareFailed m.toNat) s3)

/-- A write to FENCE[w] (R387): a module that reads its own number fenced enters FAILED (R385). -/
def State.fenceWrite (s : State) (w v : Nat) : State :=
  let s1 := s.wrN (R.REC_FENCE w) v
  if s.modnum / 64 = w && v.testBit (s.modnum % 64) then (s1.raise F.REC_EVENTS_FENCED).enterFailed else s1

/-- Whether a module is fenced. -/
def State.fenced (s : State) (m : Nat) : Bool := (s.rd (R.REC_FENCE (m / 64))).toNat.testBit (m % 64)

/-- FENCE_WRITE (R387). -/
def execFenceWrite (w : Fin 64) (v : W64) (s : State) : Host.Outcome State Fault Refusal := doneF (s.fenceWrite w v.toNat)

/-! ### Checkpoints -/

/-- One MIRROR_RANGE in force (R388): offset, bytes, OWNER; SERVING has none. -/
structure MRange where
  base : Nat
  len : Nat
  owner : Option Nat
  deriving DecidableEq, Repr

/-- The range of a pair of registers. -/
def rangeOf (b l : W64) : Option MRange :=
  if b.toNat.testBit 63 then
    some ⟨bits b.toNat 12 32 * 4096, bits l.toNat 0 32 * 4096, if b.toNat.testBit 62 then none else some (bits l.toNat 32 32)⟩
  else none

/-- The ranges in force: JOB ranges, then SERVING ranges, each in entry order. Assumption log 112 (DEDUCED). -/
def State.mranges (s : State) : List MRange :=
  let l := (List.range 16).filterMap fun r => rangeOf (s.rd (R.REC_RANGE_BASE r)) (s.rd (R.REC_RANGE_LEN r))
  l.filter (·.owner.isSome) ++ l.filter (·.owner.isNone)

/-- Ranges packed one after another from 0: (place, range). Assumption log 112 (DEDUCED). -/
def packed : Nat → List MRange → List (Nat × MRange)
  | _, [] => []
  | o, r :: t => (o, r) :: packed (o + r.len) t

/-- Bytes of a list of ranges. -/
def rangeBytes (l : List MRange) : Nat := l.foldl (fun n r => n + r.len) 0

/-- Entries of a keyed list from key `a` on, `n` keys long, moved to key `b`. -/
def moveKeys {α : Type} (t : List (Nat × α)) (a n b : Nat) : List (Nat × α) :=
  let inside := (t.filter fun e => decide (a ≤ e.1) && decide (e.1 < a + n)).map fun e => (e.1 - a + b, e.2)
  t.filter (fun e => decide (e.1 < b)) ++ inside ++ t.filter (fun e => decide (b + n ≤ e.1))

/-- Copies `n` bytes of the module's own HBM, marks included; both ends aligned to 4 KiB. -/
def State.hbmCopy (s : State) (a n b : Nat) : State :=
  let s1 := (s.holdTouch a n false false).holdTouch b n true false
  { s1 with hbm := moveKeys s1.hbm a n b, hbmPoison := moveKeys s1.hbmPoison (a / 64) (n / 64) (b / 64) }

/-- Copies `n` bytes of the module's own HBM to a global address, for the checkpoint in progress.
Assumption log 112 (DEDUCED), 114 (DEDUCED). -/
def State.copyOut (s : State) (a n g : Nat) : State :=
  if s.isOwn (gModule g) then s.hbmCopy a n (gOff g) else
  let s0 := s.holdTouch a n false false
  (pieces (n / 256 + 2) g n).foldl (fun s (pc : Nat × Nat) =>
    let src := a + (pc.1 - g)
    let s1 := s.modRec fun r => { r with checkpoint := r.checkpoint.map fun c => { c with left := c.left + 1 } }
    s1.issue .copy 0 opWrite pc.1 pc.2 0 (s.hbmPoisonBits src pc.2 * 16) (s.hbmRead src pc.2)) s0

/-- Base of a half of a region register. Assumption log 52 (DESIGN CHOICE). -/
def State.halfBase (s : State) (r : Nat) (half : Nat) : Nat :=
  let v := (s.rd r).toNat
  bits v 20 24 * 0x100000 + half * (bits v 48 16 * 0x80000)

/-- Bytes of a half of a region. -/
def State.halfSize (s : State) (r : Nat) : Nat := bits (s.rd r).toNat 48 16 * 0x80000

/-- The registers a state record carries (R390, R311). -/
def recordRegs : List Nat :=
  (List.range 16).flatMap (fun r => [R.REC_RANGE_BASE r, R.REC_RANGE_LEN r]) ++ [R.REC_LOG_STATE] ++
  (List.range 64).flatMap (fun p => [R.JOB_PLAN_INFO p, R.JOB_PLAN_VERSION p]) ++
  (List.range 8).flatMap (fun q => [R.SEQ_CFG q, R.SEQ_DIR q, R.SEQ_CENSUS q, R.SEQ_UP q, R.SEQ_DOWN q, R.SEQ_STEP q,
    R.SEQ_VERDICT q])

/-- The state record of this module (R390). Assumption log 113 (DESIGN CHOICE). -/
def State.stateRecord (s : State) : StateRecord :=
  { regs := recordRegs.map fun o => (o, s.rd o), plans := s.job.plans, queue := s.job.queue, cur := s.job.cur
    mail := s.job.mail, rounds := s.rig.groups.map fun e => (e.1, e.2.rc) }

/-- Whether the module stands at a checkpoint point (R391). -/
def State.atCheckpoint (s : State) : Bool :=
  match s.job.cur with
  | none => (s.run? 0).isNone
  | some d => d.train && !d.running && d.phase = .shards && d.shard = 0 && d.chunk = 0 && (s.run? 0).isNone

/-- Whether a checkpoint must fail (R389, R392). -/
def State.checkpointFails (s : State) : Bool :=
  decide (s.halfSize R.REC_SNAP < rangeBytes (s.mranges.filter (·.owner.isSome))) ||
  decide (s.halfSize R.REC_MIRROR < rangeBytes s.mranges + 0x4000000) ||
  (List.range 4).any fun d => s.gf (F.RED_OCC_CHUNKS d) != 0

/-- EPOCH_OPEN (R391): the crow's nest opens the next epoch. -/
def execEpochOpen (s : State) : Host.Outcome State Fault Refusal :=
  if s.holder && s.recov.epochOpen.isNone then
    doneF (s.modRec fun r => { r with epochOpen := some ((s.gf F.REC_EPOCH_EPOCH + 1) % 2 ^ 64) })
  else done s

/-- CHECKPOINT_POINT (R391, R392, R409): CUT is recorded, and ranges and state record are copied to SNAP and to the buddy;
a LEAVING or RETIRING module copies them to the STANDBY module that takes its number over, when one is named.
Assumption log 114 (DEDUCED), 115 (DEDUCED), 116 (DEDUCED). -/
def execCheckpointPoint (standby : Option ModNum) (s : State) : Host.Outcome State Fault Refusal :=
  if s.recMode ≠ mdActive || s.recov.checkpoint.isSome || !s.atCheckpoint || s.modState = msFailed then done s
  else if s.checkpointFails then doneF (s.raise F.REC_EVENTS_EPOCH_FAILED)
  else
    let handover := standby.isSome && (s.recov.leaving || s.modState = msRetiring)
    let rs := s.mranges
    let rec_ := s.stateRecord
    let jobs := rs.filter (·.owner.isSome)
    let half := 1 - s.recov.half
    let s0 := s.modRec fun r => { r with
      checkpoint := some { cut := s.gf F.REC_LOG_STATE_HEAD, record := rec_, handover := handover
                           bytes := rangeBytes rs + (if handover then 0 else rangeBytes jobs) } }
    doneJ (if handover then
        let to_ := (standby.getD 0).toNat
        (rs.foldl (fun s r => s.copyOut r.base r.len (gAddr to_ r.base)) s0).emit (.stateRecord (gAddr to_ 0) rec_)
      else
        let snap := s.halfBase R.REC_SNAP half
        let s1 := (packed 0 jobs).foldl (fun s (x : Nat × MRange) => s.hbmCopy x.2.base x.2.len (snap + x.1)) s0
        let mir := gAddr (s.gf F.REC_BUDDY_BUDDY) (s.halfBase R.REC_MIRROR half)
        let s2 := (packed 0 rs).foldl (fun s (x : Nat × MRange) => s.copyOut x.2.base x.2.len (mir + x.1)) s1
        s2.emit (.stateRecord (mir + rangeBytes rs) rec_))

/-- CHECKPOINT_DONE (R391 step 4): the copies have completed; the crow's nest is notified and compute resumes. -/
def execCheckpointDone (s : State) : Host.Outcome State Fault Refusal :=
  match s.recov.checkpoint with
  | none => done s
  | some c =>
    if c.done || c.failed || c.left ≠ 0 then done s else
      let s1 := s.modRec fun r => { r with checkpoint := some { c with done := true } }
      doneJ ((s1.recCnt 2 c.bytes).emit (.notify ((s.gf F.REC_EPOCH_EPOCH + 1) % 2 ^ 64)))

/-- Lowest admission epoch of the OPEN ledger entries. -/
def State.oldestOpen (s : State) : Option Nat :=
  s.hly.ledger.foldl (fun m (e : Nat × LedgerEntry) =>
    if e.2.isOpen then some (match m with
      | none => e.2.epoch
      | some x => min x e.2.epoch) else m) none

/-- The serving epoch advances once no OPEN entry is older than it (R407); a module that has left finishes R409 step 4
once no entry is OPEN. Assumption log 117 (DEDUCED), 118 (DEDUCED). -/
def State.serveAdvance (s : State) : State :=
  let cur := s.gf F.REC_SERVE_EPOCH_EPOCH
  let s1 := if s.recov.serveWant ≤ cur then s else
    match s.oldestOpen with
    | none => s.wrN R.REC_SERVE_EPOCH s.recov.serveWant
    | some e => if e < cur then s else s.wrN R.REC_SERVE_EPOCH (cur + 1)
  if s1.recov.left && s1.oldestOpen.isNone && s1.recMode != mdLeft then
    ((List.range 16).foldl (fun s p => s.portDisable p none) s1).sf F.REC_CFG_MODE mdLeft
  else s1

/-- SERVE_EPOCH_ADVANCE (R407, R409 step 4). -/
def execServeEpochAdvance (s : State) : Host.Outcome State Fault Refusal := doneF s.serveAdvance

/-- A LEAVING module's epoch commits (R409 steps 3 and 4): its dispatches go on at the adopter, and it admits nothing
more; an adopted number goes back (R410). Assumption log 116 (DEDUCED). -/
def State.handOver (s : State) : State :=
  let s1 := (s.modJob fun j => { j with cur := none, queue := [] }).modRec fun r => { r with left := true }
  s1.sf F.REC_ALIAS_VALID 0

/-- EPOCH_COMMIT (R393): the halves just written become active, EPOCH and CUT advance, the serving epoch follows, and
MIRROR_RANGE writes take effect. `admission`: the crow's nest makes this STANDBY module ACTIVE, or holds it back because its
buddy's WARD does not name it (R384). Assumption log 117 (DEDUCED), 121 (DESIGN CHOICE). -/
def execEpochCommit (epoch : W64) (admission : Option Bool) (s : State) : Host.Outcome State Fault Refusal :=
  if s.modState = msFailed then done s else
  let s1 := match s.recov.checkpoint with
    | none => s
    | some c =>
      let a := (s.sf F.REC_LOG_STATE_CUT c.cut).modRec fun r =>
        { r with checkpoint := none, saved := c.record, half := if c.handover then r.half else 1 - r.half }
      if c.handover then a.handOver else a
  let s2 := (s1.wr R.REC_EPOCH epoch).recCnt 0
  let s3 := s2.recov.rangeWait.foldl (fun s (e : Nat × W64) => s.wr e.1 e.2) s2
  let s4 := s3.modRec fun r => { r with rangeWait := [], serveWant := epoch.toNat, epochOpen := none }
  let s5 := match admission with
    | some true => if s4.recMode = mdStandby then s4.sf F.REC_CFG_MODE mdActive else s4
    | some false => s4.raise F.REC_EVENTS_BUDDY_MISMATCH
    | none => s4
  doneJ ((s5.serveAdvance).beginLogs)

/-- EPOCH_ABANDONED (R393): the active halves stay, and the next epoch opens after EPOCH_PERIOD.
Assumption log 115 (DEDUCED). -/
def execEpochAbandoned (s : State) : Host.Outcome State Fault Refusal :=
  if s.modState = msFailed then done s else
  doneJ (((s.recCnt 1).raise F.REC_EVENTS_EPOCH_FAILED).modRec fun r => { r with checkpoint := none, epochOpen := none })

/-! ### Log replay -/

/-- One entry of a record read back from the log. -/
structure LogEntry where
  table : Nat
  e : UpdEntry
  deriving DecidableEq, Repr

/-- The entries of a record, read from its bytes. -/
def logEntries (d : List Byte) (table n : Nat) : List LogEntry :=
  (List.range n).map fun i =>
    let o := 32 + 136 * i
    ⟨table, { entity := leAt d o 4, mask := leAt d (o + 4) 4
              values := (List.range 32).map fun j => BitVec.ofNat 32 (leAt d (o + 8 + 4 * j) 4) }⟩

/-- Bytes of the log ring in the module's own LOG region, from a position. -/
def State.logBytes (s : State) (pos n : Nat) : List Byte :=
  if s.logSize = 0 then List.replicate (64 * n) 0 else
  (List.range n).flatMap fun u => s.hbmRead (s.gf F.REC_LOG_BASE * 0x100000 + 64 * ((pos + u) % s.logSize)) 64

/-- The records of a writer's log from a position on, while POSITION matches and VALID is set (R397): how many are
applied, and the entries of those without CANCEL in order. -/
def State.readLog (s : State) : Nat → Nat → Nat × List LogEntry
  | 0, _ => (0, [])
  | fuel + 1, pos =>
    let h := s.logBytes pos 1
    let flags := leAt h 18 1
    if leAt h 0 8 ≠ pos || !flags.testBit 0 then (0, []) else
      let n := leAt h 17 1
      let u := recUnits n
      let (k, es) := s.readLog fuel (pos + u)
      if flags.testBit 1 then (k, es) else (k + 1, logEntries (s.logBytes pos u) (leAt h 16 1 % 16) n ++ es)

/-- A row as it stands: of the module's own memory, or what a read of another module returned. -/
def State.rowNow (s : State) (g : Nat) (rows : List (Nat × List Byte)) : List Byte :=
  if s.isOwn (gModule g) then
    match placeOf (gOff g) with
    | .hbm off => s.hbmRead off 128
    | _ => List.replicate 128 0
  else slice ((tfind g rows).getD []) 0 128

/-- A log replay (R397): one row written for each entity row that the records touch. Assumption log 119 (DEDUCED). -/
def State.replayLog (s : State) (from_ : Nat) (rows : List (Nat × List Byte)) : State :=
  let (k, es) := s.readLog (s.logSize + 1) from_
  let keys := (es.map fun x => (x.table, x.e.entity)).eraseDups
  let s1 := keys.foldl (fun s (x : Nat × Nat) =>
    let g := s.rowAddr x.1 x.2
    let row := (es.filter fun y => decide (y.table = x.1) && decide (y.e.entity = x.2)).foldl
      (fun d y => mergeRow d y.e) (s.rowNow g rows)
    if s.isOwn (gModule g) then (s.localWrite .mgmt g row 0 false).2
    else s.issue .mgmt 0 opWrite g 128 0 0 row) s
  s1.recCnt 8 k

/-! ### Re-mapping -/

/-- The owner tag of the plan a queued JOB_DISPATCH names. -/
def State.opOwner (s : State) (o : JobOp) : Option Nat :=
  if o.op = opJobDispatch then (tfind (o.fld 0 1) s.job.plans).map planOwner else none

/-- The invocation in progress stops without fault capture (R402 step 3), its tiles are zeroed, and the RESIDENT rows of
its owner are released (R405). Assumption log 120 (DEDUCED). -/
def State.stopAffected (s : State) (owners : List Nat) : State :=
  let hit := match s.job.cur with
    | some d => owners.contains (planOwner d.image)
    | none => false
  let s1 := match if hit then s.run? 0 else none with
    | none => s
    | some r =>
      let a := s.modGrid fun g => { g with
        runs := tdel 0 g.runs, dma := g.dma.filter fun c => c.run != 0, flushes := [], zeroing := [] }
      a.zeroSites (r.tiles.map fun (e : Nat × Tile) => (e.1, e.2.furled))
  owners.foldl (fun s o => s.releaseOwner o) s1

/-- JOB ranges of the affected owners come back from the active half of SNAP (R402 step 5). -/
def State.restoreSnap (s : State) (owners : List Nat) : State :=
  let snap := s.halfBase R.REC_SNAP s.recov.half
  (packed 0 (s.mranges.filter (·.owner.isSome))).foldl (fun s (x : Nat × MRange) =>
    if owners.contains (x.2.owner.getD 0) then s.hbmCopy (snap + x.1) x.2.len x.2.base else s) s

/-- F's buddy copies the active half of F's mirror and F's state record to S (R402 step 5). -/
def State.copyMirror (s : State) (to_ : Nat) (rec_ : StateRecord) : State :=
  let reg (o : Nat) : W64 := (tfind o rec_.regs).getD 0
  let l := (List.range 16).filterMap fun r => rangeOf (reg (R.REC_RANGE_BASE r)) (reg (R.REC_RANGE_LEN r))
  let rs := l.filter (·.owner.isSome) ++ l.filter (·.owner.isNone)
  let mir := s.halfBase R.REC_MIRROR s.recov.half
  ((packed 0 rs).foldl (fun s (x : Nat × MRange) => s.copyOut (mir + x.1) x.2.len (gAddr to_ x.2.base)) s).emit
    (.stateRecord (gAddr to_ 0) rec_)

/-- A dispatch taken back to the epoch (R405): a TRAIN dispatch goes on from its recorded step and run, any other from
its first shard. -/
def Dispatch.rewound (d : Dispatch) : Dispatch :=
  if d.train then { d with running := false, shard := 0, chunk := 0, phase := .shards }
  else { d with running := false, shard := 0, chunk := 0, cycles := 0, invocations := 0, verdict := 0 }

/-- Groups go back to the recorded r_c, with nothing staged. -/
def State.restoreRounds (s : State) (rounds : List (Nat × Nat)) : State :=
  rounds.foldl (fun s (e : Nat × Nat) =>
    s.modGroup (e.1 / 256) (e.1 % 256) fun g => { g with rc := e.2, next := [], staged := [], first0 := none, first1 := none }) s

/-- The affected dispatches of this module resume at the epoch's state (R402 step 7, R405, R311). -/
def State.rewind (s : State) (owners : List Nat) : State :=
  let sv := s.recov.saved
  let hit (d : Dispatch) : Bool := owners.contains (planOwner d.image)
  let live := match s.job.cur with
    | some d => hit d
    | none => false
  let back := sv.cur.filter hit
  let lost := sv.queue.filter fun o =>
    (match s.opOwner o with
      | some w => owners.contains w
      | none => false) && !s.job.queue.contains o
  match if live then s.job.cur else none with
  | none =>
    if s.job.cur.isSome then s.modJob fun j => { j with queue := lost ++ j.queue }
    else match back with
      | none => s.modJob fun j => { j with queue := lost ++ j.queue }
      | some d => ((s.modJob fun j => { j with cur := some d.rewound, queue := lost ++ j.queue }).modMail d.mailbox fun m =>
          { m with state := 1 }).recCnt 5
  | some d =>
    let e := match back with
      | some b => if b.mailbox = d.mailbox then b else { d.rewound with run := 1, accepted := 0, replays := 0, rerun := 0 }
      | none => { d.rewound with run := 1, accepted := 0, replays := 0, rerun := 0 }
    let s1 := (seqsOf (planSeqs d.image)).foldl (fun s q =>
      [R.SEQ_CFG q, R.SEQ_DIR q, R.SEQ_CENSUS q, R.SEQ_UP q, R.SEQ_DOWN q, R.SEQ_STEP q, R.SEQ_VERDICT q].foldl (fun s o =>
        match tfind o sv.regs with
        | some v => s.wr o v
        | none => s) s) s
    let s2 := s1.restoreRounds (sv.rounds.filter fun r =>
      match tfind r.1 s.rig.groups with
      | some g => g.plan = d.plan
      | none => false)
    ((s2.modJob fun j => { j with cur := some e.rewound, queue := lost ++ j.queue }).modMail e.mailbox fun m =>
      { m with state := 1 }).recCnt 5

/-- This module adopts F's work from F's state record (R402, R405, R406). -/
def State.adopt (s : State) (rec_ : StateRecord) : State :=
  let s1 := rec_.regs.foldl (fun s (e : Nat × W64) => s.wr e.1 e.2) s
  let s2 := s1.modJob fun j =>
    { j with plans := rec_.plans, queue := rec_.queue, cur := rec_.cur.map Dispatch.rewound, mail := rec_.mail }
  let s3 := rec_.plans.foldl (fun s (e : Nat × List Byte) => s.declareGroups e.1 e.2) s2
  let s4 := (s3.restoreRounds rec_.rounds).sf F.REC_CFG_MODE mdActive
  if rec_.cur.isSome then s4.recCnt 5 else s4

/-- Affected dispatches end ABORTED (R402: no STANDBY module, or no epoch committed). Assumption log 120 (DEDUCED). -/
def State.abortAffected (s : State) (owners : List Nat) : State :=
  let s1 := match s.job.cur with
    | some d => if owners.contains (planOwner d.image) then s.endDispatch { d with running := false } ocmAborted 0 false else s
    | none => s
  let gone := s1.job.queue.filter fun o => match s1.opOwner o with
    | some w => owners.contains w
    | none => false
  gone.foldl (fun s o =>
    let cur := s.job.cur
    let a := (s.modJob fun j => { j with queue := j.queue.erase o }).endDispatch (s.dispatchOf o) ocmAborted 0 false
    a.modJob fun j => { j with cur := cur }) s1

/-- A write of the crow's nest to a register of another module, or of this one. -/
def State.nestWrite (s : State) (m off len v : Nat) : State :=
  if m = s.modnum then s.wrN off v
  else s.issue .mgmt 0 opWrite (gAddr m (0xF0000000000 + off)) len 0 0 (leBytes len v)

/-- A write of TABLE_HOLD (R404): a bit written 0 clears at once; a bit written 1 waits until it may take force. -/
def State.tableHoldWrite (s : State) (v : Nat) : State :=
  let old := s.gf F.REC_TABLE_HOLD_TABLES
  (s.wrN R.REC_TABLE_HOLD (old &&& v)).modRec fun r => { r with holdWait := (v % 2 ^ 16) &&& (0xFFFF ^^^ old) }

/-- Holds take force whose table has no pinned line. -/
def State.tableHoldDue (s : State) : State :=
  let free := (List.range 16).foldl (fun m t =>
    if s.recov.holdWait.testBit t && !(s.cut.lines.any fun (e : Nat × CacheLine) => e.2.table = t && e.2.pins != 0)
    then m + 2 ^ t else m) 0
  (s.sf F.REC_TABLE_HOLD_TABLES (s.gf F.REC_TABLE_HOLD_TABLES ||| free)).modRec fun r =>
    { r with holdWait := r.holdWait &&& (0xFFFF ^^^ free) }

/-- TABLE_HOLD (R404): settings that wait take force as far as their tables' pinned lines are written back. -/
def execTableHold (s : State) : Host.Outcome State Fault Refusal := doneF s.tableHoldDue

/-- The register writes the crow's nest makes on the modules of the group in steps 1, 2 and 4 of R402.
Assumption log 119 (DEDUCED). -/
def State.remapWrites (s : State) (f to_ alias_ tables : Nat) (writers members : List ModNum)
    (routes : List (ModNum × W64)) : State :=
  let others := (members.map (·.toNat)).filter fun m => m != f && m != s.modnum
  let fence := (s.rd (R.REC_FENCE (f / 64))).toNat ||| 2 ^ (f % 64)
  let s1 := others.foldl (fun s m => s.nestWrite m (R.REC_FENCE (f / 64)) 8 fence) (s.fenceWrite (f / 64) fence)
  let s2 := writers.foldl (fun s m =>
    if m.toNat = s.modnum then (s.tableHoldWrite tables).tableHoldDue else s.nestWrite m.toNat R.REC_TABLE_HOLD 4 tables) s1
  let s3 := if to_ = s.modnum then (s2.wrN R.REC_ALIAS alias_).sf F.REC_CFG_MODE mdActive
    else (s2.nestWrite to_ R.REC_ALIAS 8 alias_).nestWrite to_ R.REC_CFG 4 mdActive
  let bank := (s.gf F.REC_SERVE_EPOCH_EPOCH + 1) % 2
  let s4 := routes.foldl (fun s (x : ModNum × W64) =>
    (s.nestWrite x.1.toNat (R.RIG_ROUTE f) 8 x.2.toNat).nestWrite x.1.toNat (R.REC_SERVE_ROUTE bank f) 8 x.2.toNat) s3
  if routes.any (fun x => x.1.toNat = s.modnum) || to_ = s.modnum then s4
  else (s4.wr (R.RIG_ROUTE f) (s.rd (R.RIG_ROUTE to_))).wr (R.REC_SERVE_ROUTE bank f) (s.rd (R.RIG_ROUTE to_))

/-- A re-map that can go on (R402): from the stop of the affected dispatches to their resumption.
Assumption log 119 (DEDUCED). -/
def State.remap (s : State) (f to_ alias_ : Nat) (owners : List Nat) (tables : BitVec 16) (writers members : List ModNum)
    (routes : List (ModNum × W64)) (logFrom : Option W32) (record : StateRecord) (rows : List (Nat × List Byte)) : State :=
  let lead := s.holder
  let s1 := if lead then s.remapWrites f to_ alias_ tables.toNat writers members routes else s
  let s2 := (s1.stopAffected owners).restoreSnap owners
  let s3 := if s.gf F.REC_BUDDY_WARD = f then s2.copyMirror to_ record else s2
  let s4 := if s.gf F.REC_BUDDY_BUDDY = f then s3.raise F.REC_EVENTS_WARD_UNPROTECTED else s3
  let s5 := if to_ = s.modnum then s4.adopt record else s4
  let s6 := match logFrom with
    | some c => s5.replayLog c.toNat rows
    | none => s5
  let s7 := if lead then
      let a := (members.filter fun m => m.toNat != f && m.toNat != s.modnum).foldl (fun s m =>
        s.nestWrite m.toNat R.CUT_TABLE_INVALIDATE 4 tables.toNat) (s6.invalidate tables.toNat)
      writers.foldl (fun s m => if m.toNat = s.modnum then s.tableHoldWrite 0 else s.nestWrite m.toNat R.REC_TABLE_HOLD 4 0) a
    else s6
  let s8 := if to_ = s.modnum then s7 else s7.rewind owners
  if lead then
    (((s8.recCnt 4).raise F.REC_EVENTS_REMAP_DONE).modRec fun r =>
      { r with failedMods := r.failedMods.filter (· != f), epochOpen := some ((s.gf F.REC_EPOCH_EPOCH + 1) % 2 ^ 64) })
  else s8

/-- REMAP (R402 to R406): this module's part in the re-map of module `failed` to `standby`, as crow's nest when it holds
the role. The crow's nest state supplies the operands: F's buddy and ward, the owners of F's JOB ranges, the tables and
their writers, the group's members, the ROUTE entry of F for each, the CUT from which this module replays its ward's log
(none where it is no buddy of a writer named), F's state record, and rows of other modules that the replay reads.
Assumption log 111 (DEDUCED), 119 (DEDUCED), 121 (DESIGN CHOICE). -/
def execRemap (failed : ModNum) (standby : Option ModNum) (buddy ward : ModNum) (owners : List W32) (tables : BitVec 16)
    (writers members : List ModNum) (routes : List (ModNum × W64)) (logFrom : Option W32) (record : StateRecord)
    (rows : List (Nat × List Byte)) (s : State) : Host.Outcome State Fault Refusal :=
  if s.modState = msFailed then done s else
  let f := failed.toNat
  let os := owners.map (·.toNat)
  match standby with
  | none => doneJ ((s.abortAffected os).raise F.REC_EVENTS_RECOVERY_ABORTED)
  | some t =>
    if s.gf F.REC_EPOCH_EPOCH = 0 then doneJ ((s.abortAffected os).raise F.REC_EVENTS_RECOVERY_ABORTED)
    else
      let alias_ := 2 ^ 63 + ward.toNat * 2 ^ 32 + buddy.toNat * 2 ^ 16 + f
      doneJ ((s.remap f t.toNat alias_ os tables writers members routes logFrom record rows).opsEnded)

/-! ### The crow's nest -/

/-- Periods of R399 and R400 in CK_NET cycles. -/
abbrev leasePeriod : Nat := 32 * 937500
abbrev leaseLimit : Nat := 32 * 3000000
abbrev leaseStale : Nat := 32 * 3750000
abbrev leaseLost : Nat := 32 * 7500000

/-- A compare-and-swap of the lease word of every replica (R398, R399). Assumption log 110 (DEDUCED). -/
def State.leaseSwap (s : State) (old new : Nat) : State :=
  s.replicas.foldl (fun s a => s.mgmtAtomic opCas (a + Config.nestWord 1 s.modnum) new old) s

/-- This module takes the role (R399, R400): GENERATION + 1, RENEWAL 0, its own number. -/
def State.takeNest (s : State) : State :=
  let new := (s.recov.lease / 2 ^ 44 + 1) % 2 ^ 20 * 2 ^ 44 + s.modnum
  let s1 := (s.leaseSwap s.recov.lease new).modRec fun r =>
    { r with lease := new, leaseAt := s.now, renewAt := s.now, hbSeen := [] }
  (((s1.sf F.REC_NEST_STATUS_HOLDER 1).sf F.REC_NEST_STATUS_STANDBY 0).recCnt 10).raise F.REC_EVENTS_NEST_TAKEOVER

/-- LEASE_RENEW (R399): the holder adds 1 to RENEWAL on every replica. `result`: 0 a majority took it, 1 none did, 2 a
higher generation was met and the role is given up (R398). -/
def execLeaseRenew (result : Fin 3) (s : State) : Host.Outcome State Fault Refusal :=
  if !s.holder then done s else
  let s0 := s.advanceTo (s.recov.renewAt + leasePeriod)
  let old := s0.recov.lease
  let new := old / 2 ^ 44 * 2 ^ 44 + (bits old 12 32 + 1) % 2 ^ 32 * 2 ^ 12 + old % 2 ^ 12
  let s1 := s0.leaseSwap old new
  doneF (if result.val = 0 then s1.modRec fun r => { r with lease := new, leaseAt := s0.now, renewAt := s0.now }
    else if result.val = 1 then s1
    else s1.sf F.REC_NEST_STATUS_HOLDER 0)

/-- LEASE_CHECK (R399): the majority lease word is read; the standby takes the role when it has not changed for 50 ms.
`appointed`: the crow's nest state names this module as standby (R400). Assumption log 111 (DEDUCED). -/
def execLeaseCheck (word : W64) (appointed : Bool) (s : State) : Host.Outcome State Fault Refusal :=
  let s0 := s.advanceTo (s.recov.leaseCheckAt + leasePeriod)
  let s1 := s0.modRec fun r => { r with leaseCheckAt := s0.now }
  let s2 := s1.replicas.foldl (fun s a => s.mgmtRead (a + Config.nestWord 1 s.modnum)) s1
  let s3 := s2.sf F.REC_NEST_STATUS_SEEN (word.toNat % 2 ^ 12)
  let s4 := if s3.holder then s3 else s3.sf F.REC_NEST_STATUS_STANDBY (b2n appointed)
  doneF (if word.toNat ≠ s4.recov.lease then s4.modRec fun r => { r with lease := word.toNat, leaseAt := s4.now }
    else if s4.flag F.REC_NEST_STATUS_STANDBY && decide (s4.recov.leaseAt + leaseStale ≤ s4.now) then s4.takeNest
    else s4)

/-- LEASE_LAPSED (R399): more than 40 ms since the last renewal that a majority took began. -/
def execLeaseLapsed (s : State) : Host.Outcome State Fault Refusal :=
  if !s.holder then done s else
  doneF ((s.advanceTo (s.recov.renewAt + leaseLimit + 32)).sf F.REC_NEST_STATUS_HOLDER 0)

/-- NEST_LOST (R400): the lease word has not changed for 7,500,000 CK_TICK cycles. -/
def execNestLost (s : State) : Host.Outcome State Fault Refusal :=
  if s.holder then done s else
  doneF ((s.advanceTo (s.recov.leaseAt + leaseLost)).raise F.REC_EVENTS_NEST_LOST)

/-- A write of TAKE (R400): ignored unless NEST_LOST is set. -/
def State.takeWrite (s : State) : State := if s.flag F.REC_EVENTS_NEST_LOST then s.takeNest else s

/-- TAKE (R400). -/
def execTake (s : State) : Host.Outcome State Fault Refusal := doneF s.takeWrite

/-- A write of LEAVE (R409): a READY or RETIRING module enters LEAVING. Assumption log 116 (DEDUCED). -/
def State.leave (s : State) : State :=
  if s.modState = msReady ∨ s.modState = msRetiring then (s.enter msLeaving).modRec fun r => { r with leaving := true } else s

/-- LEAVE (R409, R410). -/
def execLeave (s : State) : Host.Outcome State Fault Refusal := doneF s.leave

/-- A write to MODE (R411). -/
def State.modeWrite (s : State) (v : Nat) : State :=
  if s.recMode = mdLeft || decide (1 < v) then s else s.sf F.REC_CFG_MODE v

/-- MODE_WRITE (R411). -/
def execModeWrite (v : BitVec 2) (s : State) : Host.Outcome State Fault Refusal := doneF (s.modeWrite v.toNat)

end Sys2Proof.Machine
end

