-- ==== Sys2Proof/Machine/Image.lean ====
section
/-! DEFINITION. The Octit image: verification (R422, R423), its format and records (R444, R445), CONFIG entries and the
`cfg` fields they load (R446, R448), and every check of its contents at load (R447: R117, R133, R162, R216, R320, R354,
R370, R156, R185, R425, R449). -/

namespace Sys2Proof.Machine

/-! ### The parts of an image -/

/-- SEQUENCE of a header, none when its MAGIC is invalid (Table 16.3). -/
def headerSeq (h : List Byte) : Option Nat := if leAt h 0 4 = 0x4F435449 then some (leAt h 8 4) else none

/-- N_RECORDS, IMAGE_LEN and SIG_OFFSET. -/
def octRecords (im : List Byte) : Nat := leAt im 6 2
def octLen (im : List Byte) : Nat := leAt im 12 4
def octSig (im : List Byte) : Nat := leAt im 16 4

/-- Fields of the signature block (Table 15.5). -/
def sigSvn (im : List Byte) : Nat := beAt im (octSig im + 4) 4
def sigChainLen (im : List Byte) : Nat := beAt im (octSig im + 8) 4
def sigChain (im : List Byte) : List Byte := slice im (octSig im + 16) (sigChainLen im)
def sigBytes (im : List Byte) : List Byte := slice im (octSig im + 16 + sigChainLen im) 96

/-- Whether the signature block is well formed and the lengths agree (R423 step 2, R444).
Assumption log 122 (DEDUCED). -/
def blockOk (im : List Byte) : Bool :=
  leAt im 0 4 = 0x4F435449 && octSig im % 64 = 0 && octLen im = octSig im + 112 + sigChainLen im &&
  decide (octLen im ≤ 0x8000000) && beAt im (octSig im) 4 = 0x5349474E && decide (sigSvn im ≤ 64) &&
  decide (1 ≤ sigChainLen im) && decide (sigChainLen im ≤ 16384) && beAt im (octSig im + 12) 4 = 0

/-- The IMG_RESULT of the verification of a copy that was read, as far as step 5 (Table 15.6); 1 is OK. -/
def State.verifyImage (s : State) (im : List Byte) : Nat :=
  if !blockOk im then 3
  else match Config.chainKey s.boot.fuse.rootHash (sigChain im) with
    | none => 4
    | some (x, y) =>
      if !signatureOk x y (Config.sha384 (slice im 0 (octSig im))) (sigBytes im) then 5
      else if sigSvn im < s.boot.fuse.svn then 6
      else 1

/-- One directory entry (Table 16.4). -/
structure DirEntry where
  idx : Nat
  ty : Nat
  pad : Nat
  off : Nat
  len : Nat
  deriving DecidableEq, Repr

/-- The directory. -/
def octDir (im : List Byte) : List DirEntry :=
  (List.range (octRecords im)).map fun i =>
    let o := 64 + 16 * i
    ⟨i, leAt im o 2, leAt im (o + 2) 2 + leAt im (o + 12) 4, leAt im (o + 4) 4, leAt im (o + 8) 4⟩

/-- The bytes of a record. -/
def recBytes (im : List Byte) (e : DirEntry) : List Byte := slice im e.off e.len

/-- Record types. -/
abbrev rtConfig : Nat := 1
abbrev rtFirmware : Nat := 2
abbrev rtSelftest : Nat := 3
abbrev rtModel : Nat := 4
abbrev rtSerdes : Nat := 5
abbrev rtDenied : Nat := 6

/-- Whether a directory entry breaks a rule of R445. -/
def dirBad (im : List Byte) (e : DirEntry) : Bool :=
  e.ty = 0 || decide (6 < e.ty) || e.pad != 0 || e.off % 64 != 0 || decide (e.off < 64 + 16 * octRecords im) ||
  decide (octSig im < e.off + e.len) ||
  (octDir im).any fun f => decide (f.idx < e.idx) &&
    ((decide (f.off < e.off + e.len) && decide (e.off < f.off + f.len)) ||
     (f.ty = e.ty && (e.ty != rtModel || leAt im f.off 1 = leAt im e.off 1)))

/-- The first record of a type. -/
def recOf (im : List Byte) (ty : Nat) : Option DirEntry := (octDir im).find? fun e => e.ty = ty

/-! ### CONFIG -/

/-- One CONFIG entry (R445). -/
structure CfgEntry where
  idx : Nat
  off : Nat
  width : Nat
  pad : Nat
  value : Nat
  deriving DecidableEq, Repr

/-- The entries of a CONFIG record. -/
def cfgEntries (l : List Byte) : List CfgEntry :=
  (List.range (l.length / 16)).map fun i =>
    let o := 16 * i
    let w := leAt l (o + 4) 1
    ⟨i, leAt l o 4, w, leAt l (o + 5) 3, if w = 4 then leAt l (o + 8) 4 else leAt l (o + 8) 8⟩

/-- Whether an offset is one of the registers with derived fields (R446). -/
def isDerived (off : Nat) : Bool :=
  (decide (0xD01000 ≤ off) && decide (off < 0xD01200) && (off % 0x20 = 4 || off % 0x20 = 8 || off % 0x20 = 12)) ||
  (decide (0xD00080 ≤ off) && decide (off < 0xD00100))

/-- Whether a CONFIG entry is valid (R446). -/
def cfgOk (es : List CfgEntry) (e : CfgEntry) : Bool :=
  match findReg e.off with
  | none => false
  | some r =>
    r.cfg != 0 && !isDerived e.off && e.width * 8 = r.width && e.pad = 0 &&
    (e.value &&& (0xFFFFFFFFFFFFFFFF ^^^ r.cfg)) = 0 && !(es.any fun f => decide (f.idx < e.idx) && f.off = e.off)

/-- A register takes a value: MAX_FRAME stores it clamped (Table 2.10), AWAIT_LIMIT on every die (Table 7.12).
Assumption log 124 (DEDUCED). -/
def State.store (s : State) (off : Nat) (v : W64) : State :=
  if 0x400000 ≤ off ∧ off < 0x500000 ∧ off % 0x10000 = 8 then
    s.wrN off (min 16384 (max 1518 v.toNat))
  else if 0x2000000 ≤ off ∧ off < 0x6000000 ∧ off % 0x1000000 = 0x14 then
    (List.range 4).foldl (fun s d => s.wr (R.GRID_AWAIT_LIMIT d) v) s
  else s.wr off v

/-- The `cfg` fields of a register take a loaded value. -/
def State.loadCfg (s : State) (e : CfgEntry) : State :=
  match findReg e.off with
  | none => s
  | some r => s.store e.off ((s.rd e.off &&& ~~~ BitVec.ofNat 64 r.cfg) ||| BitVec.ofNat 64 e.value)

/-- A MAX_FRAME that no entry names takes 0 (R446), which is stored as 1,518 (Table 2.10).
Assumption log 124 (DEDUCED). -/
def State.storeFrames (s : State) : State :=
  (List.range 16).foldl (fun s p => s.store (R.ETH_MAX_FRAME p) (s.rd (R.ETH_MAX_FRAME p))) s

/-! ### Rules of the chapters that define the fields -/

/-- The features an entry of a template fills: its fields and keys whose VALID is 1, as (first, count). -/
def State.tplFills (s : State) (t : Nat) : List (Nat × Nat × Nat) :=
  ((List.range 64).filter fun f => s.flag (F.TPL_FIELD_VALID t f)).map (fun f =>
    (R.TPL_FIELD t f, s.gf (F.TPL_FIELD_FEATURE t f), 1)) ++
  ((List.range 8).filter fun k => s.flag (F.TPL_KEY_VALID t k)).map (fun k =>
    (R.TPL_KEY t k, s.gf (F.TPL_KEY_FEAT_BASE t k), s.gf (F.TPL_KEY_COUNT_M1 t k) + 1))

/-- Width in bytes of a field TYPE (Table 4.12). -/
def typeWidth (ty : Nat) : Nat :=
  if ty = 0 ∨ ty = 3 then 1 else if ty = 1 ∨ ty = 4 ∨ ty = 6 ∨ ty = 7 then 2 else 4

/-- LAST_NEEDED of a template (R116). -/
def State.tplLast (s : State) (t : Nat) : Nat :=
  let fs := ((List.range 64).filter fun f => s.flag (F.TPL_FIELD_VALID t f)).map fun f =>
    s.gf (F.TPL_FIELD_OFFSET t f) + typeWidth (s.gf (F.TPL_FIELD_TYPE t f))
  let ks := ((List.range 8).filter fun k => s.flag (F.TPL_KEY_VALID t k)).map fun k => s.gf (F.TPL_KEY_OFFSET t k) + 4
  31 + (fs ++ ks).foldl max 0

/-- The first entry of a list that fills a feature an earlier one fills. Assumption log 123 (DEDUCED). -/
def clash : List (Nat × Nat × Nat) → Option Nat
  | [] => none
  | (_, b, n) :: t =>
    match t.find? fun x => decide (x.2.1 < b + n) && decide (b < x.2.1 + x.2.2) with
    | some x => some x.1
    | none => clash t

/-- The register by which a template breaks R115, R117 or R162. -/
def State.tplBad (s : State) (t : Nat) : Option Nat :=
  let fs := (List.range 64).filter fun f => s.flag (F.TPL_FIELD_VALID t f)
  let ks := (List.range 8).filter fun k => s.flag (F.TPL_KEY_VALID t k)
  match fs.find? fun f => decide (8 < s.gf (F.TPL_FIELD_TYPE t f)) with
  | some f => some (R.TPL_FIELD t f)
  | none => match clash (s.tplFills t) with
    | some o => some o
    | none => match ks.find? fun k => decide (255 < s.gf (F.TPL_KEY_FEAT_BASE t k) + s.gf (F.TPL_KEY_COUNT_M1 t k)) ||
        !s.flag (F.CUT_TABLE_BASE_VALID (s.gf (F.TPL_KEY_TABLE t k))) with
      | some k => some (R.TPL_KEY t k)
      | none => if s.flag (F.TPL_CFG_VALID t) && s.gf (F.TPL_CFG_LAST_NEEDED t) != s.tplLast t then some (R.TPL_CFG t) else none

/-- Whether a table's rows extend beyond its module's HBM (R162). -/
def State.tableBad (s : State) (t : Nat) : Bool :=
  s.flag (F.CUT_TABLE_BASE_VALID t) &&
  decide (0x9000000000 < gOff (s.gf (F.CUT_TABLE_BASE_BASE t) * 128) + 128 * s.gf (F.CUT_TABLE_SIZE_ENTITIES t))

/-- Whether a die's near-edge rectangle breaks R216. -/
def State.neBad (s : State) (d : Nat) : Bool :=
  let rows := s.gf (F.GRID_NE_CFG_NE_ROWS d)
  let c0 := s.gf (F.GRID_NE_CFG_NE_COL0 d)
  let w := s.gf (F.GRID_NE_CFG_NE_WIDTH d)
  decide (4 < rows) || c0 % 3 != 0 || w % 3 != 0 || decide (48 < c0 + w) || decide (32 < rows * w * 2 / 3) ||
  (rows != 0 && decide (w < 6))

/-- The register by which the loaded fields break a rule of the chapter that defines them; none when they break none.
Assumption log 123 (DEDUCED). -/
def State.fieldsBad (s : State) : Option Nat :=
  match (List.range 16).find? fun p => s.gf (F.ETH_PORT_CTRL_SPEED p) = 3 with
  | some p => some (R.ETH_PORT_CTRL p)
  | none => match (List.range 64).findSome? s.tplBad with
    | some o => some o
    | none =>
      if 64 < s.stageBase 32 then some (R.TEU_STAGE_BLOCKS 0)
      else match (List.range 16).find? s.tableBad with
        | some t => some (R.CUT_TABLE_SIZE t)
        | none => match (List.range 2).find? s.neBad with
          | some d => some (R.GRID_NE_CFG d)
          | none => match (List.range 32).find? fun n => s.gf (F.RIGP_CFG_ROLE n) = 3 ||
              (s.flag (F.RIGP_CFG_ENC n) && !s.flag F.FUSE_STATUS_LINK_ENC) with
            | some n => some (R.RIGP_CFG n)
            | none => ((List.range 8).find? fun k => s.keyValid k && !p384Valid (s.keyCoord k 0) (s.keyCoord k 6)).map
                fun k => R.SEC_OPKEY k 0

/-! ### The other records -/

/-- The entries of a SELFTEST record: (SITE, CRC-32C), and its plan image. -/
def selfEntries (l : List Byte) : List (Nat × Nat) :=
  (List.range (leAt l 0 4)).map fun i => (leAt l (4 + 8 * i) 2, leAt l (8 + 8 * i) 4)
def selfPlanOf (l : List Byte) : List Byte := l.drop (4 + 8 * leAt l 0 4)

/-- The entry by which a record other than CONFIG and MODEL breaks a rule (R445, R447). Assumption log 125 (DEDUCED). -/
def recordBad (ty : Nat) (l : List Byte) : Option Nat :=
  if ty = rtFirmware then (if 0x400000 < l.length then some 0 else none)
  else if ty = rtSelftest then
    if l.length < 4 + 8 * leAt l 0 4 then some 0
    else match (List.range (leAt l 0 4)).find? fun i => leAt l (6 + 8 * i) 2 != 0 || !siteGood (leAt l (4 + 8 * i) 2) with
      | some i => some i
      | none => if planOverLimit (selfPlanOf l) || planMalformed (selfPlanOf l) none then some (4 + 8 * leAt l 0 4) else none
  else if ty = rtSerdes then
    if l.length % 8 ≠ 0 then some (l.length / 8)
    else (List.range (l.length / 8)).find? fun i =>
      let lane := leAt l (8 * i) 2
      leAt l (8 * i + 5) 3 != 0 || bits lane 7 8 != 0 || (!lane.testBit 15 && decide (64 ≤ lane % 128))
  else if ty = rtDenied then
    if leAt l 0 4 ≤ 64 ∧ l.length = 4 + 48 * leAt l 0 4 then none else some 0
  else none

/-- Slot and image of a MODEL record. -/
def modelSlot (l : List Byte) : Nat := leAt l 0 1
def modelImage (l : List Byte) : List Byte := l.drop 4

/-- Places the models of an image into empty slots, in ascending slot order (R447, R449); or the first record that does
not pass. Assumption log 126 (DEDUCED). -/
def State.placeModels (s : State) (ms : List (Nat × List Byte)) : Nat ⊕ State :=
  (List.range 16).foldl (fun (acc : Nat ⊕ State) m =>
    match acc with
    | .inl k => .inl k
    | .inr s =>
      match ms.find? fun x => modelSlot x.2 = m with
      | none => .inr s
      | some (k, l) =>
        let (st, b, ns) := s.judgeImage m 0 false false (modelImage l)
        if leAt l 1 3 ≠ 0 ∨ s.slotDeclared m = false ∨ st ≠ 0 then .inl k else
          let t := s.activate m 0 b ns
          .inr (if b.passes = 2 then t.raise F.TEU_EVENTS_PASS2_PLACED else t)) (.inr s)

/-- The MODEL records of an image: (directory index, record). -/
def modelRecords (im : List Byte) : List (Nat × List Byte) :=
  ((octDir im).filter fun e => e.ty = rtModel).map fun e => (e.idx, recBytes im e)

/-- Every check of R447, in order: the header and directory, CONFIG and the fields it loads, the other records, and the
models. The first rule broken as (record, entry), or the state with the `cfg` fields loaded.
Assumption log 122 (DEDUCED). -/
def State.checkImage (s : State) (im : List Byte) : (Nat × Nat) ⊕ State :=
  let n := octRecords im
  if leAt im 4 2 ≠ 1 ∨ n = 0 ∨ 1024 < n ∨ (slice im 20 44).any (· != 0) then .inl (0, 0)
  else match (octDir im).find? (dirBad im) with
    | some e => .inl (e.idx, 0)
    | none =>
      match recOf im rtConfig, recOf im rtFirmware, recOf im rtSelftest with
      | some c, some _, some _ =>
        let l := recBytes im c
        let es := cfgEntries l
        if l.length % 16 ≠ 0 then .inl (c.idx, l.length / 16)
        else match es.find? fun e => !cfgOk es e with
          | some e => .inl (c.idx, e.idx)
          | none =>
            let t := (es.foldl State.loadCfg s).storeFrames
            match t.fieldsBad with
            | some o => .inl (c.idx, ((es.find? fun e => e.off = o).map (fun (e : CfgEntry) => e.idx)).getD 0)
            | none =>
              match (octDir im).findSome? fun e => (recordBad e.ty (recBytes im e)).map fun k => (e.idx, k) with
              | some x => .inl x
              | none =>
                if (modelRecords im).any fun x => decide (16 ≤ modelSlot x.2) then
                  .inl (((modelRecords im).find? fun x => decide (16 ≤ modelSlot x.2)).map (fun x => (x.1, 0)) |>.getD (0, 0))
                else match t.placeModels (modelRecords im) with
                  | .inl k => .inl (k, 0)
                  | .inr _ => .inr t
      | _, _, _ => .inl (0, 0)

/-- The lane taps of a SERDES record, by lane field. -/
def serdesTaps (l : List Byte) : List (Nat × Nat) :=
  (List.range (l.length / 8)).map fun i => (leAt l (8 * i) 2, leAt l (8 * i + 2) 3)

/-- The records of a passed image that take effect later (R445). -/
def State.keepRecords (s : State) (im : List Byte) : State :=
  let get (ty : Nat) : List Byte := ((recOf im ty).map (recBytes im)).getD []
  { s with boot := { s.boot with
      denied := (List.range (leAt (get rtDenied) 0 4)).map fun i => slice (get rtDenied) (4 + 48 * i) 48
      selfPlan := selfPlanOf (get rtSelftest)
      selfSites := selfEntries (get rtSelftest)
      models := modelRecords im
      taps := serdesTaps (get rtSerdes) } }

end Sys2Proof.Machine
end

