-- ==== Sys2Proof/Machine/Boot.lean ====
section
/-! DEFINITION. The start from 52 V to READY (R435 to R455), the reset kinds and the reset controller (R437, R438), the
watchdog (R440), and the security engine's own commands (R424, R431). -/

namespace Sys2Proof.Machine

/-- CAUSE of a reset (Table 16.2). -/
abbrev rcPowerOn : Nat := 0
abbrev rcPin : Nat := 1
abbrev rcWatchdog : Nat := 2
abbrev rcWatchdogMem : Nat := 3
abbrev rcHost : Nat := 4
abbrev rcSoft : Nat := 5

/-- FAIL of BOOT_STATUS (Table 16.7). -/
abbrev bfNoImage : Nat := 1
abbrev bfSelftest : Nat := 2
abbrev bfHbm : Nat := 3
abbrev bfWatchdog : Nat := 4

/-- STEP of Table 16.1 in progress. -/
def State.step_ (s : State) : Nat := s.gf F.BOOT_STATUS_STEP
/-- Sets STEP. -/
def State.atStep (s : State) (k : Nat) : State := s.sf F.BOOT_STATUS_STEP k

/-- Milliseconds from a cycle to now, at the divider in force, up to 0xFFFF (Table 16.10).
Assumption log 3 (DESIGN CHOICE). -/
def State.msSince (s : State) (from_ : Nat) : Nat := min 0xFFFF ((s.now - from_) / (25000 * s.divN))

/-- What no reset touches: the queue, the model's clock and counter, what has been sent, fuses, the reset controller, the
input side, the reference clocks and the test port. Assumption log 14 (DEDUCED), 15 (DEDUCED). -/
def State.cleared (s : State) : State :=
  { State.reset with
    pending := s.pending, now := s.now, freeCtr := s.freeCtr, out := s.out
    boot := { fuse := s.boot.fuse, cause := s.boot.cause, wdtCount := s.boot.wdtCount, resetLow := s.boot.resetLow
              perstLow := s.boot.perstLow, startAt := s.now, stateAt := s.now }
    pwr := { vinUp := s.pwr.vinUp, latch := s.pwr.latch, latchAt := s.pwr.latchAt, startFail := s.pwr.startFail
             good := s.pwr.good, chargeAt := s.pwr.chargeAt, sysLost := s.pwr.sysLost, serdesLost := s.pwr.serdesLost
             pcieLost := s.pwr.pcieLost, jtag := s.pwr.jtag, scan := s.pwr.scan, driven := s.pwr.driven
             smbStrap := s.pwr.smbStrap, smbAddr := s.pwr.smbAddr, smbOffset := s.pwr.smbOffset } }

/-- Whether a reset is in progress: a start that has not come to step 4. -/
def State.inReset (s : State) : Bool := decide (1 ≤ s.step_) && decide (s.step_ ≤ 3)

/-- Whether the regulators run, so that a reset other than POWER_ON can begin (R473, R474). -/
def State.powered (s : State) : Bool := s.pwr.good && s.pwr.latch = 0

/-- A start at step 3 on a reset kind other than POWER_ON (R437, R438): the lowest cause of those that meet is kept.
Assumption log 14 (DEDUCED), 128 (DEDUCED). -/
def State.restart (s : State) (cause : Nat) : State :=
  if !s.powered then s else
  let c := if s.inReset then min s.boot.cause cause else cause
  let s1 := s.cleared
  ({ s1 with boot := { s1.boot with cause := c } }).atStep 3

/-- A start ends in FAILED (R455): FAIL is set, and every port is held down. -/
def State.failStart (s : State) (fail : Nat) : State :=
  let s0 := { s with boot := { s.boot with failing := false, readyAt := none } }
  let s1 := (s0.sf F.BOOT_STATUS_FAIL fail).enter msFailed
  let s2 := (List.range 16).foldl (fun s p => if s.linkUp p then s.dropLink p none false else s) s1
  (List.range 32).foldl (fun s n => s.rigDown n) s2

/-! ### Steps 3 to 5 -/

/-- ROOT_PLL_LOCK (R23, R24, R436, R476, R478, R479): the root PLL locks at N = 80 once SYS_REFCLK is there and RESET_N
is high. Step 4 begins: the PCI Express link trains unless PERST_N is low, and SMBus samples its address.
Assumption log 34 (DESIGN CHOICE), 130 (DEDUCED). -/
def execRootPllLock (s : State) : Host.Outcome State Fault Refusal :=
  if s.step_ ≠ 3 || !s.powered || s.boot.resetLow then done s else
  let addr : BitVec 7 := 0x58#7 + s.pwr.smbStrap.zeroExtend 7
  done (({ s with pwr := { s.pwr with
    sysLost := false, pcieUp := !s.boot.perstLow && !s.pwr.pcieLost, smbAddr := some (s.pwr.smbAddr.getD addr) } }).atStep 4)

/-- ROM_BOOT (R435, R438, R439, R1): the ROM senses fuses, SERIAL and ROOT_HASH, records RESET_CAUSE and starts the random
source; the watchdog runs from here (R440). Assumption log 34 (DESIGN CHOICE). -/
def execRomBoot (s : State) : Host.Outcome State Fault Refusal :=
  if s.step_ ≠ 4 || s.modState = msFailed then done s else
  let f := s.boot.fuse
  let s1 := ((s.wr R.SERIAL f.serial).sf F.FUSE_STATUS_FUSES_VALID 1).sf F.FUSE_STATUS_LINK_ENC (b2n f.linkEnc)
  let s2 := (List.range 6).foldl (fun s w => s.wrN (R.SEC_ROOT_HASH w) (beAt f.rootHash (8 * w) 8)) s1
  let s3 := ((s2.sf F.SEC_STATUS_ROOT_VALID 1).sf F.SEC_STATUS_KEY_PRESENT (b2n f.idKey.isSome)).sf F.SEC_STATUS_RNG_OK 1
  let s4 := (s3.sf F.SEC_SVN_FUSED_SVN f.svn).sf F.SEC_CERT_LEN_BYTES f.chain.length
  let s5 := s4.sf F.BOOT_RESET_CAUSE_CAUSE s.boot.cause
  let s6 := if s.boot.cause = rcWatchdog ∨ s.boot.cause = rcWatchdogMem then s5.raise F.BOOT_EVENTS_WATCHDOG_START else s5
  let s7 := if s.boot.cause = rcWatchdogMem then s6.raise F.SEC_EVENTS_MGMT_UNCORR else s6
  done (({ s7 with boot := { s7.boot with kickAt := s.now } }).atStep 5)

/-- IMG_RESULT of a copy (Table 15.11). -/
def State.imgResult (s : State) (copy res : Nat) : State :=
  if copy = 0 then s.sf F.SEC_IMG_RESULT_COPY_A res else s.sf F.SEC_IMG_RESULT_COPY_B res

/-- The copy tried first (R443). -/
def firstCopy (a b : Option Nat) : Nat :=
  match a, b with
  | none, some _ => 1
  | some x, some y => if x < y then 1 else 0
  | _, _ => 0

/-- A copy is refused: its IMG_RESULT, and the other copy or FAILED (R443 steps 3 and 4). -/
def State.refuseCopy (s : State) (copy res : Nat) : State :=
  let s1 := { (s.imgResult copy res) with boot := { s.boot with tried := s.boot.tried ++ [copy] } }
  if s.boot.tried.isEmpty then s1.raise F.SEC_EVENTS_IMG_FALLBACK else s1.failStart bfNoImage

/-- A passed copy is loaded (R446, R448): its `cfg` fields, its records, its firmware; the module enters INITIALISING. -/
def State.loadImage (s t : State) (copy : Nat) (im : List Byte) : State :=
  let s1 := ((t.imgResult copy 1).sf F.SEC_STATUS_IMAGE_COPY copy).sf F.SEC_SVN_IMAGE_SVN (sigSvn im)
  let s2 := (s1.keepRecords im).sf F.BOOT_TIMES_BOOTING_MS (s.msSince s.boot.startAt)
  let s3 := s2.enter msInitialising
  ({ s3 with
    boot := { s3.boot with tried := s.boot.tried ++ [copy], firmware := true, kickAt := s.now }
    pwr := { s3.pwr with step6At := s.now } }).atStep 6

/-- IMAGE_COPY_TRIED (R443): the next copy in order is read (`image`; none a read error), verified, checked and loaded,
or refused. `headerA` and `headerB` are the 64 header bytes of the two copies.
Assumption log 34 (DESIGN CHOICE), 123 (DEDUCED). -/
def execImageCopyTried (headerA headerB : List Byte) (image : Option (List Byte)) (s : State) :
    Host.Outcome State Fault Refusal :=
  if s.step_ ≠ 5 || s.modState = msFailed then done s else
  let a := headerSeq headerA
  let b := headerSeq headerB
  let s0 := s.wrN R.BOOT_IMG_SEQ (b.getD 0 * 2 ^ 32 + a.getD 0)
  let copy := match s.boot.tried with
    | [] => firstCopy a b
    | c :: _ => 1 - c
  match image with
  | none => done (s0.refuseCopy copy 2)
  | some im =>
    let v := s0.verifyImage im
    if v ≠ 1 then done (s0.refuseCopy copy v)
    else
      let s1 := s0.sf F.SEC_STATUS_IMAGE_VERIFIED 1
      match s1.checkImage im with
      | .inl (r, e) =>
        done (((s1.wrN R.BOOT_REFUSE_REC (copy * 2 ^ 63 + r * 2 ^ 32 + e)).raise F.BOOT_EVENTS_REFUSED).refuseCopy copy 7)
      | .inr t => done (s0.loadImage t copy im)

/-! ### Steps 7 to 11 -/

/-- Every tile memory holds zero and no mark, every row is FREE (R450). -/
def State.zeroGrid (s : State) : State := { s with grid := {} }

/-- SELFTEST (R451): the SELFTEST plan has run; `rows` holds what it left in each listed site's signature rows, `faulted`
the sites that faulted. A site whose CRC-32C differs or that faulted fails. Assumption log 34 (DESIGN CHOICE). -/
def execSelftest (rows : List (W32 × List Byte)) (faulted : List W32) (s : State) : Host.Outcome State Fault Refusal :=
  if s.step_ ≠ 7 || s.modState = msFailed then done s else
  let got (site : Nat) : List Byte := ((rows.find? fun x => x.1.toNat = site).map (·.2)).getD []
  let len (site : Nat) : Nat := if isM (siteField site) then 896 else 1024
  let bad := (s.boot.selfSites.filter fun e =>
    crc32c (slice (got e.1) 0 (len e.1)) ≠ e.2 || faulted.any fun f => f.toNat = e.1).map fun e => siteField e.1
  let s1 := (bad.foldl (fun s site => s.failTile site) s).zeroGrid
  done (if bad.isEmpty then s1.atStep 8 else s1.failStart bfSelftest)

/-- Rigging ports whose ROLE is not OFF begin to train (R453). -/
def State.trainRigging (s : State) : State :=
  (List.range 32).foldl (fun s n =>
    if s.gf (F.RIGP_CFG_ROLE n) ≠ 0 ∧ (s.linkState n = lsOff ∨ s.linkState n = lsDown) then s.setLink n lsTraining else s) s

/-- BOOT_NONCE is drawn (R431) and the initial models are placed (R449); the module enters LINKING. -/
def State.enterLinking (s : State) : State :=
  let (n, s1) := s.random 64
  let s2 := { (s1.wrN R.HLY_BOOT_NONCE n) with boot := { s1.boot with nonceDrawn := true } }
  let s3 := match s2.placeModels s2.boot.models with
    | .inl _ => s2
    | .inr t => t
  let s4 := (s3.sf F.BOOT_TIMES_INIT_MS (s.msSince s.boot.stateAt)).enter msLinking
  (s4.atStep 9).trainRigging

/-- HBM_TRAINING (R452): the stacks that `ok` names train and are zero-filled; with all of them trained the module goes on
to LINKING once BOOT_NONCE can be drawn. Assumption log 34 (DESIGN CHOICE), 127 (DEDUCED). -/
def execHbmTraining (ok : BitVec 8) (s : State) : Host.Outcome State Fault Refusal :=
  if s.step_ ≠ 8 || s.modState = msFailed then done s else
  let s1 := (List.range 8).foldl (fun s k =>
    if ok.toNat.testBit k then s.sf (F.MEM_HBM_STATUS_TRAINED (k / 2) (k % 2)) 1 else s) s
  if ok.toNat ≠ 255 then done (s1.failStart bfHbm)
  else
    let s2 := { s1 with hbm := [], hbmPoison := [], hold := [] }
    done (if s2.rngOk then s2.enterLinking.syncFreeMin else s2)

/-- LINK_WAIT_S in cycles (R453). -/
def State.linkWait (s : State) : Nat := s.msNet (1000 * max 1 (s.gf F.BOOT_START_CFG_LINK_WAIT_S))

/-- Rigging ports UP, and whether every port whose ROLE is not OFF is UP. -/
def State.rigUp (s : State) : Nat := ((List.range 32).filter fun n => s.linkState n = lsUp).length
def State.allUp (s : State) : Bool := (List.range 32).all fun n => s.gf (F.RIGP_CFG_ROLE n) = 0 || s.linkState n = lsUp

/-- Whether enough ports are UP for READY after the wait (Table 16.12). -/
def State.enoughUp (s : State) : Bool := decide (min 32 (s.gf F.BOOT_START_CFG_MIN_RIG_PORTS) ≤ s.rigUp)

/-- The module enters READY, or RETIRING when step 6 found too little margin (R453, R464); it joins its group as
STANDBY. Assumption log 129 (DEDUCED), 132 (DEDUCED). -/
def State.enterReady (s : State) : State :=
  let s1 := (s.sf F.BOOT_TIMES_LINKING_MS (s.msSince s.boot.stateAt)).enter (if s.boot.retiring then msRetiring else msReady)
  let s2 := { s1 with
    boot := { s1.boot with readyAt := some s.now, wdtCount := 0 }
    recov := { s1.recov with hbAt := s.now, hbCheckAt := s.now, leaseAt := s.now, leaseCheckAt := s.now }
    pwr := { s1.pwr with periodAt := s.now, loopAt := s.now } }
  (s2.atStep 11).sf F.REC_CFG_MODE mdStandby

/-- READY (R453, R410, R400): at the first CK_TICK edge with the required ports UP. `inUse`: a standby has adopted this
module's number; `first`: it is the group's lowest-numbered module with NEST_CAND 1 at group start.
Assumption log 34 (DESIGN CHOICE). -/
def execReady (inUse first : Bool) (s : State) : Host.Outcome State Fault Refusal :=
  if s.modState ≠ msLinking then done s else
  let due := if s.allUp then s.now else s.boot.stateAt + s.linkWait
  if !s.allUp && !s.enoughUp then done s else
  let s0 := s.advanceTo ((max due s.now + 31) / 32 * 32)
  let s1 := s0.enterReady
  let s2 := if inUse then s1.raise F.REC_EVENTS_NUMBER_IN_USE else s1
  done (if first && s2.flag F.REC_CFG_NEST_CAND then s2.takeNest else s2)

/-- LINK_WAIT_EXPIRED (R453). -/
def execLinkWaitExpired (s : State) : Host.Outcome State Fault Refusal :=
  if s.modState ≠ msLinking then done s else
  let s0 := s.advanceTo (s.boot.stateAt + s.linkWait)
  done (if s0.enoughUp then s0 else s0.raise F.BOOT_EVENTS_LINK_WAIT_EXPIRED)

/-! ### Resets -/

/-- RESET_PIN (R437, R473, R477): RESET_N has been low for 1 µs. In steps 1 and 2 it only holds the start at step 3. -/
def execResetPin (s : State) : Host.Outcome State Fault Refusal :=
  let s0 := { s with boot := { s.boot with resetLow := true } }
  done (if s.step_ < 3 then s0 else s0.restart rcPin)

/-- RESET_N_RELEASED (R437): the start held at step 3 proceeds. -/
def execResetNReleased (s : State) : Host.Outcome State Fault Refusal :=
  done { s with boot := { s.boot with resetLow := false } }

/-- The endpoint's configuration space takes its PCI Express defaults (R438, R478): every vector masked.
Assumption log 8 (PRESUMED). -/
def State.pcieDefaults (s : State) : State := { s with irq := { s.irq with masked := 2 ^ 64 - 1, funcMask := false, pending := 0 } }

/-- HOST_RESET (R438): a hot reset or a link disable. -/
def execHostReset (s : State) : Host.Outcome State Fault Refusal :=
  if !s.powered then done s
  else if s.flag F.BOOT_START_CFG_HOST_RESTART then done (s.restart rcHost)
  else done s.pcieDefaults

/-- PERST (R478): PERST_N low holds the link down and resets the configuration space; high lets the link train, from step
4 on. Assumption log 130 (DEDUCED). -/
def execPerst (low : Bool) (s : State) : Host.Outcome State Fault Refusal :=
  let s0 := { s with
    boot := { s.boot with perstLow := low }
    pwr := { s.pwr with pcieUp := !low && !s.pwr.pcieLost && decide (4 ≤ s.step_) } }
  done (if low then s0.pcieDefaults else s0)

/-- A write to RESTART (R437). -/
def State.restartWrite (s : State) (v : Nat) : State := if v = 0x53545254 then s.restart rcSoft else s

/-- RESTART (R437). -/
def execRestart (s : State) : Host.Outcome State Fault Refusal := done (s.restartWrite 0x53545254)

/-- A write to WDT_KICK (R440). -/
def State.kick (s : State) (v : Nat) : State :=
  if v = 0x4B49434B then { s with boot := { s.boot with kickAt := s.now } } else s

/-- WDT_KICK (R440). -/
def execWdtKick (v : W32) (s : State) : Host.Outcome State Fault Refusal := done (s.kick v.toNat)

/-- The watchdog's period (R440, Table 16.13). -/
def State.wdtPeriod (s : State) : Nat :=
  if s.boot.firmware then s.msNet (max 10 (s.gf F.BOOT_WDT_CFG_WDT_MS)) else s.msNet 2000

/-- WATCHDOG_EXPIRED (R440, R419): a reset, or FAILED with WATCHDOG_LOOP at the third such start in a row.
Assumption log 128 (DEDUCED). -/
def execWatchdogExpired (s : State) : Host.Outcome State Fault Refusal :=
  if s.step_ < 5 || !s.powered then done s else
  let s0 := s.advanceTo (s.boot.kickAt + s.wdtPeriod)
  let n := s.boot.wdtCount + 1
  let s1 := s0.restart (if s.boot.coreStopped then rcWatchdogMem else rcWatchdog)
  let s2 := { s1 with boot := { s1.boot with wdtCount := n } }
  done (if 3 ≤ n then (s2.atStep 4).failStart bfWatchdog else s2)

/-! ### The security engine -/

/-- A write to SVN_ADVANCE (R424). -/
def State.svnAdvance (s : State) (v : Nat) : State :=
  let img := s.gf F.SEC_SVN_IMAGE_SVN
  if v ≠ 0x53564E21 ∨ s.modState ≠ msReady ∨ img ≤ s.boot.fuse.svn then s
  else { (s.sf F.SEC_SVN_FUSED_SVN img) with boot := { s.boot with fuse := { s.boot.fuse with svn := img } } }

/-- SVN_ADVANCE (R424). -/
def execSvnAdvance (v : W32) (s : State) : Host.Outcome State Fault Refusal := done (s.svnAdvance v.toNat)

/-- RNG_HEALTH_FAIL (R431). -/
def execRngHealthFail (s : State) : Host.Outcome State Fault Refusal :=
  if !s.rngOk then done s else done ((s.sf F.SEC_STATUS_RNG_OK 0).raise F.SEC_EVENTS_RNG_FAIL)

/-- MGMT_CORE_MEMORY_ERROR (R419): MGMT_UNCORR is set and the core stops. -/
def execMgmtCoreMemoryError (s : State) : Host.Outcome State Fault Refusal :=
  done (({ s with boot := { s.boot with coreStopped := true } }).raise F.SEC_EVENTS_MGMT_UNCORR)

end Sys2Proof.Machine
end

