-- ==== Sys2Proof/Machine/Power.lean ====
section
/-! DEFINITION. Ageing, reefing, power and thermal (R456 to R469), the HBM stacks' temperature and failure (R245, R385),
the input and its latched shutdowns (R471 to R474), and the reference clocks (R476). What a sensor reports is an operand of
its command. -/

namespace Sys2Proof.Machine

/-- Changes the power state. -/
def State.modPwr (s : State) (f : Pwr → Pwr) : State := { s with pwr := f s.pwr }

/-! ### Monitors -/

/-- The rails a monitor block drives, with the slack it gives each (R457). -/
def railsOf (b : Nat) (sl ss : Int) : List (Nat × Int) :=
  if b < 96 then [(b / 24, sl), (4, ss)] else [(5, min sl ss)]

/-- A sample enters a rail's worst slack. -/
def State.noteSlack (s : State) (r : Nat) (v : Int) : State :=
  let w := match tfind r s.pwr.worst with
    | some w => min w v
    | none => v
  s.modPwr fun p => { p with worst := tins r w p.worst }

/-- Hottest block: (temperature, block), the lowest block among equals. -/
def State.hottest (s : State) : Int × Nat :=
  (List.range 104).foldl (fun (m : Int × Nat) b =>
    let t := sgn 8 (s.gf (F.AGE_MON_TEMP b))
    if m.1 < t then (t, b) else m) (sgn 8 (s.gf (F.AGE_MON_TEMP 0)), 0)

/-- T_WARN_C, PWR_LIMIT_W and I_LIMIT_A as they act (Table 17.12). -/
def State.tWarn (s : State) : Nat :=
  let t := s.gf F.PWR_CFG_T_WARN_C
  if t = 0 ∨ 100 < t then 100 else t
def State.powerLimit (s : State) : Nat :=
  let w := s.gf F.PWR_CFG_PWR_LIMIT_W
  if w = 0 ∨ 3000 < w then 3000 else w
def State.currentLimit (s : State) : Nat :=
  let i := s.gf F.PWR_CFG_I_LIMIT_A
  if i = 0 ∨ 65 < i then 65 else i

/-- MONITOR_SAMPLE (R456, R465): in the next CK_TICK cycle the next monitor block is written to MON[b], and the input
voltage (10 mV) and current (0.1 A) are sampled. Assumption log 131 (DEDUCED). -/
def execMonitorSample (slackL slackS temp : Byte) (ro : BitVec 20) (vin iin : BitVec 16) (s : State) :
    Host.Outcome State Fault Refusal :=
  let b := s.pwr.monNext % 104
  let s0 := (s.advanceTo ((s.now / 32 + 1) * 32)).modPwr fun p => { p with monNext := (b + 1) % 104 }
  let was := sgn 8 (s.gf (F.AGE_MON_TEMP b))
  let s1 := s0.wrN (R.AGE_MON b) (ro.toNat * 2 ^ 44 + temp.toNat * 2 ^ 24 + slackS.toNat * 256 + slackL.toNat)
  let s2 := (railsOf b (sgn 8 slackL.toNat) (sgn 8 slackS.toNat)).foldl (fun s x => s.noteSlack x.1 x.2) s1
  let (t, k) := s2.hottest
  let s3 := (s2.sf F.PWR_THERM_STATUS_T_BLOCK_C (unsgn 8 t)).sf F.PWR_THERM_STATUS_HOT_BLOCK k
  let s4 := (s3.sf F.PWR_STATUS_V_IN_CV vin.toNat).sf F.PWR_STATUS_I_IN_DA iin.toNat
  done (if was ≤ (s.tWarn : Int) && decide ((s.tWarn : Int) < sgn 8 temp.toNat) then s4.raise F.PWR_EVENTS_THERM_WARN else s4)

/-! ### The margin planner -/

/-- Kinds of AGE_LOG entries (Table 17.19). -/
abbrev akVstep : Nat := 1
abbrev akReef : Nat := 2
abbrev akRetire : Nat := 3
abbrev akStart : Nat := 4

/-- Writes an entry of the ageing log. -/
def State.ageLog (s : State) (kind rail mv : Nat) : State :=
  let n := s.gf F.AGE_LOG_IDX_COUNT
  let t := (s.now - s.pwr.step6At) / (25000 * s.divN) % 2 ^ 32
  (s.wrN (R.AGE_LOG (n % 64)) (kind * 2 ^ 56 + s.divN * 2 ^ 48 + rail * 2 ^ 45 + mv % 8192 * 2 ^ 32 + t)).sf
    F.AGE_LOG_IDX_COUNT (n + 1)

/-- V_MAX_MV as it acts (Table 17.11). -/
def State.vMax (s : State) (r : Nat) : Nat := min 900 (s.gf (F.AGE_RAIL_V_MAX_MV r))

/-- The root runs at divider N: CLK_STATUS and RATES follow (R462). -/
def State.setRoot (s : State) (n : Nat) : State :=
  let s1 := (s.sf F.CLK_STATUS_N n).sf F.CLK_STATUS_ROOT_MHZ (50 * n)
  s1.wrN R.CLK_RATES (cdiv 38400000 n * 2 ^ 24 + cdiv 3840000 n)

/-- RETIRING (R461): entered from READY; a module not yet READY enters it in place of READY.
Assumption log 132 (DEDUCED). -/
def State.enterRetiring (s : State) : State :=
  if s.modState = msReady then ((s.enter msRetiring).ageLog akRetire 0 0).raise F.AGE_EVENTS_RETIRE
  else if s.modState < msReady && !s.boot.retiring then
    ({ (s.ageLog akRetire 0 0) with boot := { s.boot with retiring := true } }).raise F.AGE_EVENTS_RETIRE
  else s

/-- A reef request (R460, R461). -/
def State.requestReef (s : State) : State :=
  if s.divN ≤ 80 then s.enterRetiring
  else s.sf F.CLK_STATUS_REEF_PENDING 1

/-- The planner's action on one rail at the end of a period (R458). -/
def State.planRail (s : State) (r : Nat) : State :=
  match tfind r s.pwr.worst with
  | none => s
  | some w =>
    let v := s.gf (F.AGE_RAIL_V_MV r)
    if (s.gf F.AGE_CFG_MARGIN_TARGET : Int) ≤ w then s
    else if v < s.vMax r then
      if s.pwr.glide.isSome then s else
      let nv := min (v + 5) (s.vMax r)
      ((s.sf (F.AGE_RAIL_V_MV r) nv).ageLog akVstep r nv).raise F.AGE_EVENTS_VSTEP
    else if v = s.vMax r then (s.raise F.AGE_EVENTS_HEADROOM_OUT).requestReef
    else s

/-- PLANNER_PERIOD (R458): the end of a PLAN_PERIOD_MS. -/
def execPlannerPeriod (s : State) : Host.Outcome State Fault Refusal :=
  if s.modState < msReady then done s else
  let s0 := s.advanceTo (s.pwr.periodAt + s.msNet (max 1 (s.gf F.AGE_CFG_PLAN_PERIOD_MS)))
  let s1 := (List.range 6).foldl State.planRail s0
  done (s1.modPwr fun p => { p with worst := [], periodAt := s0.now })

/-- REEF_GLIDE (R460, R197): at a job boundary after a reef request the root begins to glide. -/
def execReefGlide (s : State) : Host.Outcome State Fault Refusal :=
  if !s.flag F.CLK_STATUS_REEF_PENDING || s.pwr.glide.isSome || (s.run? 0).isSome then done s else
  done ((s.sf F.CLK_STATUS_GLIDING 1).modPwr fun p => { p with glide := some (s.divN - 1, s.now + 32 * 2000) })

/-- GLIDE_DONE (R460, R462): the glide completes; dispatches that waited may go on. -/
def execGlideDone (s : State) : Host.Outcome State Fault Refusal :=
  match s.pwr.glide with
  | none => done s
  | some (n, due) =>
    let s0 := s.advanceTo due
    let s1 := (s0.sf F.CLK_STATUS_GLIDING 0).sf F.CLK_STATUS_REEF_PENDING 0
    doneJ ((((s1.setRoot n).modPwr fun p => { p with glide := none }).ageLog akReef 0 0).raise F.AGE_EVENTS_REEF_DONE)

/-- One candidate of step 6 (R464): every rail at V_START_MV, then raised under R458 after each round of samples. The
voltages it ends with, and the last round. -/
def State.tryRound (s : State) (v : Nat → Nat) (round : Vector Byte 6) (r : Nat) : Nat :=
  let w := sgn 8 ((round.toList.getD r 0).toNat)
  if w < (s.gf F.AGE_CFG_MARGIN_TARGET : Int) ∧ v r < s.vMax r then min (v r + 5) (s.vMax r) else v r
def State.tryN (s : State) : List (Vector Byte 6) → List Nat → List Nat
  | [], v => v
  | x :: t, v => s.tryN t ((List.range 6).map (s.tryRound (fun r => v.getD r 0) x))

/-- Whether a candidate's last round leaves every rail a margin. Assumption log 127 (DEDUCED). -/
def State.marginOk (s : State) (rounds : List (Vector Byte 6)) (v : List Nat) (guard : Nat) : Bool :=
  match rounds.getLast? with
  | none => false
  | some x => (List.range 6).all fun r =>
      decide (((s.gf F.AGE_CFG_MARGIN_TARGET + guard : Nat) : Int) ≤ sgn 8 ((x.toList.getD r 0).toNat)) &&
      decide (v.getD r 0 ≤ s.vMax r)

/-- N_CAP as it acts (Table 17.5). -/
def State.nCap (s : State) : Nat :=
  let n := s.gf F.CLK_N_CAP_N_CAP
  if n < 80 ∨ 96 < n then 96 else n

/-- START_PLANNER (R464, R450): step 6. `samples` holds, for N = 80, 81 and so on, the rounds of the six rails' worst slacks
seen in each candidate's window. All SRAM is zeroised. Assumption log 34 (DESIGN CHOICE), 127 (DEDUCED). -/
def execStartPlanner (samples : List (List (Vector Byte 6))) (s : State) : Host.Outcome State Fault Refusal :=
  if s.step_ ≠ 6 || s.modState = msFailed then done s else
  let v0 := (List.range 6).map fun r => s.gf (F.AGE_RAIL_V_START_MV r)
  let guard := s.gf F.AGE_CFG_START_GUARD
  let tried (n : Nat) : List (Vector Byte 6) := samples.getD (n - 80) []
  let best := ((List.range (s.nCap - 79)).reverse.map (· + 80)).find? fun n => s.marginOk (tried n) (s.tryN (tried n) v0) guard
  let n := best.getD 80
  let v := s.tryN (tried n) v0
  let s1 := (List.range 6).foldl (fun s r => s.sf (F.AGE_RAIL_V_MV r) (v.getD r 0)) (s.setRoot n)
  let s2 := s1.zeroGrid.ageLog akStart 0 0
  let short := n = 80 && (match (tried 80).getLast? with
    | none => false
    | some x => (List.range 6).any fun r =>
        decide (sgn 8 ((x.toList.getD r 0).toNat) < (s.gf F.AGE_CFG_MARGIN_TARGET : Int)) && v.getD r 0 = s.vMax r)
  done ((if short then s2.enterRetiring else s2).atStep 7)

/-! ### Power and heat -/

/-- THROTTLE changes (R466). Assumption log 134 (DEDUCED). -/
def State.setThrottle (s : State) (t : Nat) : State :=
  let old := s.gf F.PWR_STATUS_THROTTLE
  if t = old then s
  else (s.sf F.PWR_STATUS_THROTTLE t).modPwr fun p => { p with throttleOld := old, throttleAt := s.arith }

/-- Whether any temperature exceeds its warning threshold (Table 17.2). -/
def State.anyWarm (s : State) : Bool :=
  decide ((s.tWarn : Int) < sgn 8 (s.gf F.PWR_THERM_STATUS_T_BLOCK_C)) || decide (90 < s.gf F.PWR_THERM_STATUS_T_HBM_C) ||
  decide (115 < s.gf F.PWR_THERM_STATUS_T_REG_C)

/-- POWER_LOOP (R465, R469): once per ms, with the average input power and the hottest regulator.
Assumption log 131 (DEDUCED). -/
def execPowerLoop (watts : BitVec 16) (reg : Byte) (s : State) : Host.Outcome State Fault Refusal :=
  let s0 := s.advanceTo (s.pwr.loopAt + s.msNet 1)
  let was := s.gf F.PWR_THERM_STATUS_T_REG_C
  let s1 := ((s0.modPwr fun p => { p with loopAt := s0.now }).sf F.PWR_STATUS_P_IN_W watts.toNat).sf
    F.PWR_THERM_STATUS_T_REG_C reg.toNat
  let s2 := if was ≤ 115 ∧ 115 < reg.toNat then s1.raise F.PWR_EVENTS_THERM_WARN else s1
  let excess := decide (s2.powerLimit < watts.toNat)
  let s3 := if excess then (s2.cnt (R.PWR_COUNT 1)).raise F.PWR_EVENTS_POWER_LIMIT else s2
  let s4 := if s3.anyWarm then s3.cnt (R.PWR_COUNT 3) else s3
  let t := s.gf F.PWR_STATUS_THROTTLE
  done (if excess || s4.anyWarm then s4.setThrottle (min 12 (t + 1))
    else if watts.toNat * 100 < 95 * s4.powerLimit then s4.setThrottle (t - 1)
    else s4)

/-- CURRENT_LIMIT (R465): the fourth consecutive sample above I_LIMIT_A; THROTTLE becomes 12 in the next CK_TICK cycle. -/
def execCurrentLimit (iin : BitVec 16) (s : State) : Host.Outcome State Fault Refusal :=
  if iin.toNat ≤ 10 * s.currentLimit then done s else
  let s0 := (s.advanceTo ((s.now / 32 + 1) * 32)).sf F.PWR_STATUS_I_IN_DA iin.toNat
  done (((s0.setThrottle 12).cnt (R.PWR_COUNT 2)).raise F.PWR_EVENTS_CURRENT_LIMIT)

/-- HBM_TEMPERATURE_REPORT (R245, R467): a stack reports its temperature. Assumption log 131 (DEDUCED). -/
def execHbmTemperatureReport (stack : Fin 8) (temp : Byte) (s : State) : Host.Outcome State Fault Refusal :=
  let d := stack.val / 2
  let k := stack.val % 2
  let was := s.gf (F.MEM_HBM_STATUS_TEMP d k)
  let s1 := (s.sf (F.MEM_HBM_STATUS_TEMP d k) temp.toNat).sf (F.MEM_HBM_STATUS_REFRESH_2X d k) (b2n (decide (85 < temp.toNat)))
  let hot := (List.range 8).foldl (fun m i => max m (s1.gf (F.MEM_HBM_STATUS_TEMP (i / 2) (i % 2)))) 0
  let s2 := s1.sf F.PWR_THERM_STATUS_T_HBM_C hot
  done (if was ≤ 90 ∧ 90 < temp.toNat then s2.raise F.PWR_EVENTS_HBM_HOT else s2)

/-- HBM_STACK_FAILED (R385): in service a stack loses training, or reports a failure that cannot be retried. -/
def execHbmStackFailed (stack : Fin 8) (lost : Bool) (s : State) : Host.Outcome State Fault Refusal :=
  let s1 := if lost then s.sf (F.MEM_HBM_STATUS_TRAINED (stack.val / 2) (stack.val % 2)) 0 else s
  if s.ready then doneF s1.enterFailed else done s1

/-! ### The input -/

/-- Every regulator turns off and all state is lost. Assumption log 14 (DEDUCED). -/
def State.powerOff (s : State) : State := s.cleared.modPwr fun p => { p with good := false, smbAddr := none, smbOffset := 0 }

/-- POWER_ON (R471, R437, R438): VIN rises past 46 V; the reset controller is cleared, and after 1 ms the charge begins.
It does nothing while the input has not been removed since the last time. -/
def execPowerOn (s : State) : Host.Outcome State Fault Refusal :=
  if s.pwr.vinUp then done s else
  let s1 := s.powerOff
  done (({ s1 with
    boot := { s1.boot with cause := rcPowerOn, wdtCount := 0 }
    pwr := { s1.pwr with vinUp := true, latch := 0, startFail := false, chargeAt := s.now + s1.msNet 1 } }).atStep 2)

/-- REGULATORS_GOOD (R474): MOD_PG goes high and step 2 ends. -/
def execRegulatorsGood (s : State) : Host.Outcome State Fault Refusal :=
  if s.step_ ≠ 2 || s.pwr.latch ≠ 0 || s.pwr.startFail then done s else
  done ((s.modPwr fun p => { p with good := true }).atStep 3)

/-- REGULATOR_START_FAIL (R474): 50 ms after the start of the charge a regulator has not reported good. -/
def execRegulatorStartFail (s : State) : Host.Outcome State Fault Refusal :=
  if s.step_ ≠ 2 then done s else
  done ((s.advanceTo (s.pwr.chargeAt + s.msNet 50)).powerOff.modPwr fun p => { p with startFail := true })

/-- INPUT_REMOVED (R471, R473): VIN has been below 43 V for 100 µs; latch and start failure are released. -/
def execInputRemoved (s : State) : Host.Outcome State Fault Refusal :=
  done (s.powerOff.modPwr fun p => { p with vinUp := false, latch := 0, startFail := false })

/-- A latched shutdown (R473): every regulator off; the first cause stands, and of causes within one 1 µs interval the one
with the higher code. -/
def State.latchOff (s : State) (code : Nat) : State :=
  if !s.pwr.vinUp then s else
  let us (t : Nat) : Nat := t / (25 * s.divN)
  let c := if s.pwr.latch = 0 then code else if us s.pwr.latchAt = us s.now then max s.pwr.latch code else s.pwr.latch
  s.powerOff.modPwr fun p => { p with latch := c, latchAt := if s.pwr.latch = 0 then s.now else s.pwr.latchAt }

/-- THERMAL_TRIP (R467, R473): FAULT_CODE 0b01. -/
def execThermalTrip (s : State) : Host.Outcome State Fault Refusal := done (s.latchOff 1)

/-- OVERCURRENT (R471, R473): above 72 A for 20 µs; FAULT_CODE 0b10. -/
def execOvercurrent (s : State) : Host.Outcome State Fault Refusal := done (s.latchOff 2)

/-- OVERVOLTAGE (R471, R473): above 58 V for 10 µs; FAULT_CODE 0b11. -/
def execOvervoltage (s : State) : Host.Outcome State Fault Refusal := done (s.latchOff 3)

/-! ### Reference clocks -/

/-- SYS_REFCLK_LOST (R476): after step 3 the module enters FAILED as if a tile had failed. -/
def execSysRefclkLost (s : State) : Host.Outcome State Fault Refusal :=
  let s0 := s.modPwr fun p => { p with sysLost := true }
  if s.step_ ≤ 3 then done s0 else done s0.enterFailed

/-- SERDES_REFCLK_LOST (R476, R46, R324): every Ethernet and Rigging lane loses lock. -/
def execSerdesRefclkLost (s : State) : Host.Outcome State Fault Refusal :=
  let s0 := s.modPwr fun p => { p with serdesLost := true }
  let s1 := (List.range 16).foldl (fun s p => if s.portOn p then s.dropLink p none (s.flag (F.ETH_PORT_STATUS_ALIGNED p)) else s) s0
  doneJ ((List.range 32).foldl (fun s n => s.rigDown n) s1)

/-- SERDES_REFCLK_RETURNED (R476): the lanes train again. -/
def execSerdesRefclkReturned (s : State) : Host.Outcome State Fault Refusal :=
  let s0 := s.modPwr fun p => { p with serdesLost := false }
  done (if s0.modState < msLinking || s0.startFailed then s0 else s0.trainRigging)

/-- PCIE_REFCLK_LOST (R476): only the PCI Express link goes down. -/
def execPcieRefclkLost (s : State) : Host.Outcome State Fault Refusal :=
  done (s.modPwr fun p => { p with pcieLost := true, pcieUp := false })

end Sys2Proof.Machine
end

