-- ==== Sys2Proof/Machine/Control.lean ====
section
/-! DEFINITION. The control space (R6 to R9, R33 to R35, R496): what a read of a register returns and does, what a write
does by access type and by the behaviour its table gives it, and accesses of any length in the parts of R496. -/

namespace Sys2Proof.Machine

/-! ### The map -/

/-- The node store window (R134). -/
def inNodes (off : Nat) : Bool := decide (0x1000000 ≤ off) && decide (off < 0x2000000)
/-- The CERT window (R420, SEC + 0x1_0000). -/
def inCert (off : Nat) : Bool := decide (0x210000 ≤ off) && decide (off < 0x214000)
/-- SUBMIT[0] to SUBMIT[15] (Table 13.17). -/
def inSubmit (off : Nat) : Bool := decide (0xF00400 ≤ off) && decide (off < 0xF00480)
/-- The mailboxes (Table 13.17). -/
def inMail (off : Nat) : Bool := decide (0xF80000 ≤ off) && decide (off < 0xFA0000)
/-- SUBMIT_CTRL and SUBMIT_STATUS (Table 13.17). -/
abbrev offSubmitCtrl : Nat := 0xF00480
abbrev offSubmitStatus : Nat := 0xF00484

/-- Bytes of the register that begins at an offset: 8, 4, or 0 where none does (R6, R8). -/
def ctlWidth (off : Nat) : Nat :=
  if off % 8 = 0 && (inNodes off || inCert off || inSubmit off || inMail off) then 8
  else if off = offSubmitCtrl ∨ off = offSubmitStatus then 4
  else match findReg (canonOff off) with
    | some r => r.width / 8
    | none => 0

/-! ### Reads -/

/-- An access of the module that holds the claim of the Rigging bank (R365). -/
def State.ownerAccess (s : State) (src : Src) : State :=
  match src with
  | .rigging m => if (s.bank 2).claimed = some m.toNat then s.modBank 2 fun b => { b with touched := s.now } else s
  | _ => s

/-- A read of the register at an offset by a requester: its value, and the state after the read (R7, R9, and the
registers whose tables give a read an effect). -/
def State.readReg (s : State) (src : Src) (off : Nat) : Nat × State :=
  let c := canonOff off
  if c = R.GL_SUMMARY then (s.summary, s)
  else if 0x1000 ≤ c ∧ c < 0x3000 then (s.ringPendingWord ((c - 0x1000) / 8), s)
  else if inCert c then (leAt s.boot.fuse.chain (c - 0x210000) 8, s)
  else if inNodes c then (leAt (s.node ((c - 0x1000000) / 16)).bytes (c % 16) 8, s)
  else if inMail c then
    let m := (c - 0xF80000) / 32
    if c % 32 = 0 then
      let (d, s1) := s.readMailbox m
      (leNat (d.take 8), s1)
    else ((s.mailbox m).word (c % 32 / 8), s)
  else if inSubmit c then
    match bankOf src with
    | none => (0, s)
    | some k =>
      if s.claimedOther src then (0, s)
      else ((tget (fun _ => (0 : W64)) (s.bank k).staged ((c - 0xF00400) / 8)).toNat, s.ownerAccess src)
  else if c = offSubmitStatus then s.readStatus src
  else if c = R.ETH_PTP_NS then s.ptpReadNs (latchOf src)
  else if c = R.ETH_PTP_FRAC then ((s.ptpLatch (latchOf src)).frac, s)
  else if c = R.ETH_PTP_SEC then ((s.ptpLatch (latchOf src)).sec, s)
  else if c = R.TEU_QUEUE_OCC then (s.sampleOcc, s)
  else if c = R.CUT_QUEUE_OCC then ((s.rd c).toNat + 65536 * s.bridgeOcc, s)
  else if 0x700000 ≤ c ∧ c < 0x800000 then s.compatRead c 0
  else if 0x6001000 ≤ c ∧ c < 0x6003000 ∧ 0xD0 ≤ c % 0x100 ∧ c % 0x100 < 0xE8 then
    (((s.rd c).toNat + s.stalling ((c - 0x6001000) / 0x100) ((c % 0x100 - 0xD0) / 8)) % 2 ^ 48, s)
  else ((s.rd c).toNat, s)

/-- Key of an upper-word latch: requester and register (R6). -/
def upperKey (src : Src) (off : Nat) : Nat := latchOf src * 2 ^ 28 + canonOff off

/-- A 4-byte read (R6): a 32-bit register, the lower word of a 64-bit one, which latches its upper word, or an upper
word, latched or not; a reserved offset reads zero (R8). PTP_SEC follows R76. Assumption log 19 (DEDUCED). -/
def State.read32 (s : State) (src : Src) (off : Nat) : Nat × State :=
  if ctlWidth off = 4 then s.readReg src off
  else if off % 8 = 0 ∧ ctlWidth off = 8 then
    let (v, s1) := s.readReg src off
    if canonOff off = R.ETH_PTP_SEC then (v % 2 ^ 32, s1)
    else (v % 2 ^ 32, { s1 with upper := tins (upperKey src off) (BitVec.ofNat 32 (v / 2 ^ 32)) s1.upper })
  else if off % 8 = 4 ∧ ctlWidth (off - 4) = 8 then
    match tfind (upperKey src (off - 4)) s.upper with
    | some w => (w.toNat, { s with upper := tdel (upperKey src (off - 4)) s.upper })
    | none =>
      let (v, s1) := s.readReg src (off - 4)
      (v / 2 ^ 32, s1)
  else (0, s)

/-- One part of a read (R6, R496). -/
def State.readPart (s : State) (src : Src) (p : Part) : List Byte × State :=
  if !p.live then (List.replicate p.len 0, s)
  else if p.len = 8 then
    if ctlWidth p.off = 8 then
      let (v, s1) := s.readReg src p.off
      (leBytes 8 v, s1)
    else
      let (a, s1) := s.read32 src p.off
      let (b, s2) := s1.read32 src (p.off + 4)
      (leBytes 4 a ++ leBytes 4 b, s2)
  else
    let (a, s1) := s.read32 src p.off
    (leBytes 4 a, s1)

/-- The parts of a read, in ascending order (R496). -/
def readParts (src : Src) : List Part → State → List Byte × State
  | [], s => ([], s)
  | p :: t, s =>
    let (d, s1) := s.readPart src p
    let (e, s2) := readParts src t s1
    (d ++ e, s2)

/-- Control-space offset of a global address in the control space. -/
def ctlOff (addr : Nat) : Nat := gOff addr - 0xF0000000000

/-- A read of the control space: STATUS, bytes and state (R33, R36, R496). -/
def State.ctlRead (s : State) (src : Src) (addr n : Nat) : Nat × List Byte × State :=
  match s.ctlRefused src (ctlOff addr) false with
  | some c => (stDenied, List.replicate n 0, s.decodeRefuse (srcCode src) c addr)
  | none =>
    let (d, s1) := readParts src (accessParts (ctlOff addr) n) s
    (stOk, d, s1)

/-! ### Writes -/

/-- A register's value with the lanes `m` of a write of `v` in it. -/
def merged (old : W64) (m v : Nat) : Nat := (old.toNat &&& (0xFFFFFFFFFFFFFFFF ^^^ m)) ||| (v &&& m)

/-- A write by access type (R7): RW bits take the value, W1S bits written 1 set, W1C bits written 1 clear and send what
R492 sends again; RO, WO and reserved bits ignore it. `m` holds the bits of the register that the access covers. -/
def State.writeAs (s : State) (off m v : Nat) : State :=
  match findReg off with
  | none => s
  | some r =>
    let s1 := if r.rw = 0 then s else s.store off (BitVec.ofNat 64 (merged (s.rd off) (r.rw &&& m) v))
    let s2 := if r.w1s = 0 then s1 else s1.wrN off ((s1.rd off).toNat ||| (v &&& r.w1s &&& m))
    if r.w1c = 0 then s2 else (s2.clearEvents off (v &&& r.w1c &&& m) 0).settle (vectorsOf off)

/-- A write of ETH port registers: ENABLE (Table 2.8), PREEMPT_CTRL (R75), NATIVE_CLEAR (R72), the PTP clock (R76).
Assumption log 24 (DEDUCED). -/
def State.ethWrite (s : State) (off m v : Nat) : State :=
  let p := (off - 0x400000) / 0x10000
  if off = R.ETH_PTP_NS then s.ptpSet v
  else if off = R.ETH_PTP_SEC then s.ptpStage (merged (BitVec.ofNat 64 s.ptp.staged) m v)
  else if off = R.ETH_PTP_STEP then s.ptpAdjust v
  else if off = R.ETH_PORT_CTRL p then
    let was := s.portOn p
    let s1 := (s.writeAs off m v).sf (F.ETH_PORT_CTRL_ENABLE p) (b2n was)
    if v.testBit 0 then s1.sf (F.ETH_PORT_CTRL_ENABLE p) 1 else s1.portDisable p none
  else if off = R.ETH_PREEMPT_CTRL p then s.preemptWrite p v
  else if off = R.ETH_CNT_CTRL p then
    if v.testBit 0 then (List.range 52).foldl (fun s i => s.wrN (R.ETH_COUNTER p i) 0) s else s
  else s.writeAs off m v

/-- A write of ring registers (R82, R100, R101). -/
def State.ringWrite (s : State) (off m v : Nat) : State :=
  let n := (off - 0x800000) / 0x40
  if off = R.RING_CFG n then s.ringCfgWrite n v
  else if off = R.RING_SW_IDX n then s.swIdxWrite n v
  else if off = R.RING_STATUS n then
    let was := s.flag (F.RING_STATUS_COMPLETION n)
    let s1 := s.writeAs off m v
    if was && !s1.flag (F.RING_STATUS_COMPLETION n) then s1.restartIrq n else s1
  else if s.ringOn n && decide (off ≠ R.RING_IRQ_CTRL n) then s
  else s.writeAs off m v

/-- A write of sequence registers (Tables 11.16 to 11.21). -/
def State.seqWrite (s : State) (off m v : Nat) : State :=
  let q := (off - 0x2F01000) / 0x40
  if off = R.SEQ_CTRL q then
    let s1 := if v.testBit 1 then s.issueSeq q false else s
    if v.testBit 0 then s1.issueSeq q true else s1
  else if s.flag (F.SEQ_CFG_ENABLE q) then
    (if off = R.SEQ_CFG q && !v.testBit 31 then s.seqDisable q else s)
  else if off = R.SEQ_CFG q then
    let s1 := (s.writeAs off m v).sf (F.SEQ_CFG_ENABLE q) 0
    if v.testBit 31 then s1.seqEnable q else s1
  else s.writeAs off m v

/-- Whether writes to a SERVE_ROUTE bank are ignored (R407). Assumption log 53 (DEDUCED). -/
def State.bankBusy (s : State) (b : Nat) : Bool :=
  decide (s.gf F.REC_SERVE_EPOCH_EPOCH % 2 = b) || s.hly.ledger.any fun (e : Nat × LedgerEntry) => e.2.isOpen && decide (e.2.epoch % 2 = b)

/-- A write of REC registers (R387, R388, R400, R404, R407, R409, R411). Assumption log 21 (DEDUCED). -/
def State.recWrite (s : State) (off m v : Nat) : State :=
  if off = R.REC_CFG then s.modeWrite (v % 4)
  else if off = R.REC_TABLE_HOLD then (s.tableHoldWrite v).tableHoldDue
  else if off = R.REC_NEST_CTRL then
    let s1 := if v.testBit 1 then s.leave else s
    if v.testBit 0 then s1.takeWrite else s1
  else if 0x7000200 ≤ off ∧ off < 0x7000400 then
    s.fenceWrite ((off - 0x7000200) / 8) (merged (s.rd off) m v)
  else if 0x7000400 ≤ off ∧ off < 0x7000500 then
    let now := (tfind off s.recov.rangeWait).getD (s.rd off)
    let mask := if off % 16 = 0 then 0xC0000FFFFFFFF000 else 0xFFFFFFFFFFFFFFFF
    s.modRec fun r => { r with rangeWait := tins off (BitVec.ofNat 64 (merged now m (v &&& mask))) r.rangeWait }
  else if 0x7010000 ≤ off ∧ off < 0x7030000 then
    if s.bankBusy ((off - 0x7010000) / 0x10000) then s else s.writeAs off m v
  else s.writeAs off m v

/-- A write of CUT registers: CUT_CTRL applies to replies that become ready after it (Table 6.11), TABLE_INVALIDATE
(R169), the samplers (R190). -/
def State.cutWrite (s : State) (off m v : Nat) : State :=
  if off = R.CUT_CTRL then
    let s1 := s.writeAs off m v
    let cap := min 8192 (s1.gf F.CUT_CTRL_PAD_CAP)
    { s1 with cut := { s1.cut with reqs := s1.cut.reqs.map fun (e : Nat × ReqCtx) =>
        if e.2.stage = .ready && decide (s1.now < e.2.replyAt) then
          (e.1, { e.2 with padCap := cap, aligned := (s1.gf F.CUT_CTRL_ALIGNED_PORTS).testBit e.2.port })
        else e } }
  else if off = R.CUT_TABLE_INVALIDATE then s.invalidate (v % 2 ^ 16)
  else if 0xE02000 ≤ off ∧ off < 0xE02200 ∧ off % 0x20 = 0 then
    let p := (off - 0xE02000) / 0x20
    if v.testBit 0 then (s.sf (F.SAMPLE_CTRL_VALID p) 0).sf (F.SAMPLE_CTRL_ARM p) 1 else s
  else s.writeAs off m v

/-- A write of the register at an offset, other than the submission registers. -/
def State.writeOther (s : State) (off m v : Nat) : State :=
  if off = R.BOOT_WDT_KICK then s.kick v
  else if off = R.BOOT_RESTART then s.restartWrite v
  else if off = R.SEC_SVN_ADVANCE then s.svnAdvance v
  else if off = R.JOB_MBX_RELEASE then (s.releaseMailbox (v % 4096)).2
  else if 0x8000000 ≤ off ∧ off < 0x9000000 ∧ off % 0x400000 = 8 then (if v % 2 ^ 32 = 0 then s else s.resRelease (v % 2 ^ 32))
  else if 0x400000 ≤ off ∧ off < 0x500000 then s.ethWrite off m v
  else if 0x800000 ≤ off ∧ off < 0xC00000 then s.ringWrite off m v
  else if 0xE00000 ≤ off ∧ off < 0xF00000 then s.cutWrite off m v
  else if 0x2F01000 ≤ off ∧ off < 0x2F01200 then s.seqWrite off m v
  else if 0x7000000 ≤ off ∧ off < 0x8000000 then s.recWrite off m v
  else s.writeAs off m v

/-- A write of the register at an offset by a requester: STATUS and state. SUBMIT[k] and SUBMIT_CTRL are banked, and shut
to a module that does not hold the claim (R364, R365). -/
def State.writeReg (s : State) (src : Src) (off m v : Nat) : Nat × State :=
  if inSubmit off || decide (off = offSubmitCtrl) then
    if s.claimedOther src then (stDenied, s) else
    match bankOf src with
    | none => (stOk, s)
    | some k =>
      if off = offSubmitCtrl then (stOk, if v.testBit 0 then s.submitGo src else s.touchBank src)
      else
        let s1 := s.touchBank src
        let i := (off - 0xF00400) / 8
        if (s1.bank k).busy then (stOk, s1) else
          (stOk, s1.modBank k fun b => { b with
            staged := tset (fun _ => (0 : W64)) b.staged i
              (BitVec.ofNat 64 (merged (tget (fun _ => (0 : W64)) b.staged i) m v)) })
  else (stOk, s.writeOther (canonOff off) m v)

/-- A 4-byte write (R6): a 32-bit register, or one half of a 64-bit register. Assumption log 19 (DEDUCED). -/
def State.write32 (s : State) (src : Src) (off v : Nat) : Nat × State :=
  if ctlWidth off = 4 then s.writeReg src off 0xFFFFFFFF v
  else if off % 8 = 0 ∧ ctlWidth off = 8 then s.writeReg src off 0xFFFFFFFF v
  else if off % 8 = 4 ∧ ctlWidth (off - 4) = 8 then s.writeReg src (off - 4) 0xFFFFFFFF00000000 (v * 2 ^ 32)
  else (stOk, s)

/-- One part of a write (R6, R496). -/
def State.writePart (s : State) (src : Src) (p : Part) (d : List Byte) : Nat × State :=
  if !p.live then (stOk, s)
  else if p.len = 8 then
    if ctlWidth p.off = 8 then s.writeReg src p.off 0xFFFFFFFFFFFFFFFF (leAt d 0 8)
    else
      let (a, s1) := s.write32 src p.off (leAt d 0 4)
      let (b, s2) := s1.write32 src (p.off + 4) (leAt d 4 4)
      (max a b, s2)
  else s.write32 src p.off (leAt d 0 4)

/-- The parts of a write, in ascending order (R496). -/
def writeParts (src : Src) : List Part → List Byte → State → Nat × State
  | [], _, s => (stOk, s)
  | p :: t, d, s =>
    let (a, s1) := s.writePart src p (d.take p.len)
    let (b, s2) := writeParts src t (d.drop p.len) s1
    (max a b, s2)

/-- Whether a part of an access from `off` on holds a byte that a POISON bit covers (R330).
Assumption log 20 (DEDUCED). -/
def Part.poisoned (p : Part) (off pz : Nat) : Bool :=
  (List.range 4).any fun u => pz.testBit u && decide (p.off < off + 64 * u + 64) && decide (off + 64 * u < p.off + p.len)

/-- A write of the control space: STATUS and state (R33, R36, R496). A part with poisoned bytes has no effect: no check
failure becomes a value that passes for good (R416). Assumption log 20 (DEDUCED). -/
def State.ctlWrite (s : State) (src : Src) (addr : Nat) (d : List Byte) (pz : Nat := 0) : Nat × State :=
  match s.ctlRefused src (ctlOff addr) true with
  | some c => (stDenied, s.decodeRefuse (srcCode src) c addr)
  | none =>
    let ps := (accessParts (ctlOff addr) d.length).map fun p =>
      if p.poisoned (ctlOff addr) pz then { p with live := false } else p
    writeParts src ps d s

/-- The global address of a control-space offset of this module. -/
def State.ctlAddr (s : State) (off : Nat) : Nat := gAddr s.modnum (0xF0000000000 + off)

/-! ### Meanings -/

/-- REGISTER_WRITE (R6, R7, R33, R35, R496): a write of bytes at a control-space offset by a requester. A refused write
ends in an error completion (R36). -/
def execRegisterWrite (src : Src) (off : BitVec 28) (data : List Byte) (s : State) : Host.Outcome State Fault Refusal :=
  let (st, s1) := s.ctlWrite src (s.ctlAddr off.toNat) data
  doneJ (if st = stOk then s1 else s1.denied src)

end Sys2Proof.Machine
end

