-- ==== Sys2Proof/Machine/Elec.lean ====
section
/-! DEFINITION. The PCI Express endpoint's received TLPs (R380, R418), MSI-X unmasking (R492), clears of events registers
(R485, R486), the SMBus target (R479) and the test port (R480). -/

namespace Sys2Proof.Machine

/-! ### PCI Express -/

/-- The parts of a PCI Express access (R496): `be` says, byte by byte from an aligned 8-byte group on, which bytes are
covered. Assumption log 26 (DEDUCED). -/
def enabledParts : Nat → Nat → List Bool → List Part
  | 0, _, _ => []
  | fuel + 1, off, be =>
    if be.isEmpty then [] else
      let g := be.take 8 ++ List.replicate (8 - be.length) false
      let lo := g.take 4
      let hi := g.drop 4
      let rest := enabledParts fuel (off + 8) (be.drop 8)
      if g.all id then ⟨off, 8, true⟩ :: rest
      else if lo.all id && !hi.any id then ⟨off, 4, true⟩ :: ⟨off + 4, 4, false⟩ :: rest
      else if hi.all id && !lo.any id then ⟨off, 4, false⟩ :: ⟨off + 4, 4, true⟩ :: rest
      else ⟨off, 8, false⟩ :: rest

/-- The parts a TLP of doublewords at `off` touches, from the aligned 8-byte group on; an 8-byte access that is not
aligned to its own size has no effect (R6). Assumption log 26 (DEDUCED). -/
def tlpParts (off : Nat) (be : List Bool) : List Part :=
  if off % 8 = 4 ∧ be = List.replicate 8 true then [⟨off - 4, 16, false⟩]
  else enabledParts (be.length + 2) (off / 8 * 8) (List.replicate (off % 8) false ++ be)

/-- What is found in a received TLP: its kind (Table 13.16: BAR0 is the control space). -/
abbrev tlpWrite : Nat := 0
abbrev tlpRead : Nat := 1

/-- PCIE_TLP_RECEIVED (R418, R33, R496): a TLP of kind 0 memory write, 1 memory read of BAR0, or 2 completion, of
doublewords at a BAR0 offset with its byte enables. A failing ECRC drops it; a write whose data is poisoned would change
a register for good (R416) and is dropped; a completion's data reaches the command whose read it ends.
Assumption log 25 (PRESUMED). -/
def execPcieTlpReceived (kind : Fin 3) (ecrcBad ep : Bool) (off : BitVec 28) (be : List Bool) (data : List Byte)
    (s : State) : Host.Outcome State Fault Refusal :=
  if !s.pwr.pcieUp then done s else
  let dw := off.toNat / 4 * 4
  if ecrcBad then doneJ ((s.secCnt 6).raise F.SEC_EVENTS_PCIE_INTEGRITY)
  else
    let s1 := if ep then (s.secCnt 7).raise F.SEC_EVENTS_PCIE_INTEGRITY else s
    if kind.val = tlpWrite then
      doneJ (if ep then s1 else (writeParts .pcie (tlpParts dw be) (List.replicate (dw % 8) 0 ++ data) s1).2)
    else if kind.val = tlpRead then
      let (d, s2) := readParts .pcie (tlpParts dw be) s1
      doneJ (s2.emit (.completion (srcCode .pcie) stOk (slice d (dw % 8) be.length)))
    else doneJ s1

/-- MSIX_UNMASK (R492): the function (none) or one vector is unmasked; a vector whose Pending bit is set sends one
message when it is still asserted. Assumption log 8 (PRESUMED). -/
def execMsixUnmask (vector : Option (Fin 64)) (s : State) : Host.Outcome State Fault Refusal :=
  let s1 : State := match vector with
    | none => { s with irq := { s.irq with funcMask := false } }
    | some k => { s with irq := { s.irq with masked := s.irq.masked &&& (2 ^ 64 - 1 - 2 ^ k.val) } }
  let due := (List.range 64).filter fun k =>
    s1.irq.pending.testBit k && s1.irq.asserted.testBit k && !s1.irq.masked.testBit k && !s1.irq.funcMask
  done (due.foldl (fun s k => { (s.emit (.msix k)) with irq := { s.irq with pending := s.irq.pending &&& (2 ^ 64 - 1 - 2 ^ k) } }) s1)

/-- EVENTS_CLEAR (R485, R486, R492, R494, R101): a W1C write of `v` to an events register in a cycle in which hardware
sets the bits `hw` of it. Assumption log 4 (DESIGN CHOICE). -/
def execEventsClear (off : BitVec 28) (v hw : W64) (s : State) : Host.Outcome State Fault Refusal :=
  let c := canonOff off.toNat
  match findReg c with
  | none => done s
  | some r =>
    if r.w1c = 0 then done s else
    let h := hw.toNat &&& r.w1c
    let s1 := s.clearEvents c (v.toNat &&& r.w1c) h
    let s2 := if isRigPortEvents c && h != 0 then s1.setBitsHw R.RIG_EVENTS (2 ^ F.RIG_EVENTS_PORT_EVENT.lo) else s1
    let n := (c - 0x800000) / 0x40
    let s3 := if 0x800000 ≤ c ∧ c < 0xC00000 ∧ s.flag (F.RING_STATUS_COMPLETION n) ∧ ¬ s2.flag (F.RING_STATUS_COMPLETION n)
      then s2.restartIrq n else s2
    .next (s3.settle (vectorsOf c))

/-! ### SMBus (R479) -/

/-- Whether the SMBus target acknowledges its address. -/
def State.smbOn (s : State) : Bool := s.pwr.smbAddr.isSome && s.pwr.latch = 0 && !s.pwr.startFail

/-- SMB_SET_OFFSET (Table 18.9): command 0x01. -/
def execSmbSetOffset (off : W32) (s : State) : Host.Outcome State Fault Refusal :=
  done (if s.smbOn then s.modPwr fun p => { p with smbOffset := off.toNat } else s)

/-- Whether an offset lies in the blocks an SMBus read serves: GLOBAL, BOOT, and CLK, AGE and PWR. -/
def smbServed (off : Nat) : Bool := decide (off < 0x200000) || (decide (0x300000 ≤ off) && decide (off < 0x400000))

/-- A read of `n` bytes at the offset, as an access of the management core; the offset advances by `n`.
Assumption log 22 (DEDUCED). -/
def State.smbRead (s : State) (n : Nat) : State :=
  if !s.smbOn then s else
  let off := s.pwr.smbOffset
  let (d, s1) :=
    if smbServed off then
      let (_, d, s1) := s.ctlRead .mgmt (s.ctlAddr off) n
      (d, s1)
    else (List.replicate n 0, s)
  (s1.emit (.smbus d)).modPwr fun p => { p with smbOffset := (off + n) % 2 ^ 32 }

/-- SMB_READ32 (Table 18.9): command 0x02. -/
def execSmbRead32 (s : State) : Host.Outcome State Fault Refusal := done (s.smbRead 4)

/-- SMB_READ64 (Table 18.9): command 0x03. -/
def execSmbRead64 (s : State) : Host.Outcome State Fault Refusal := done (s.smbRead 8)

/-! ### Test port (R480) -/

/-- BYPASS: the bypass register is selected, as after test-logic reset; nothing is driven. -/
def execBypass (s : State) : Host.Outcome State Fault Refusal :=
  done (s.modPwr fun p => { p with jtag := 0, driven := [] })

/-- SAMPLE/PRELOAD: the chain takes the sampled contacts and shifts them out while `preload` is shifted in; the contacts
keep their normal function. Assumption log 135 (DESIGN CHOICE). -/
def execSamplePreload (sampled preload : List Bool) (s : State) : Host.Outcome State Fault Refusal :=
  done ((s.emit (.jtag sampled)).modPwr fun p => { p with jtag := 1, scan := preload, driven := [] })

/-- EXTEST: the contacts are driven from the chain; refused unless STATE is BOOTING or FAILED.
Assumption log 23 (DEDUCED). -/
def execExtest (s : State) : Host.Outcome State Fault Refusal :=
  done (if s.modState = msBooting ∨ s.modState = msFailed then
    s.modPwr fun p => { p with jtag := 2, driven := p.scan } else s)

end Sys2Proof.Machine
end

