-- ==== Sys2Proof/Machine/RigRx.lean ====
section
/-! DEFINITION. Rigging packets received: the checks every request passes (R327, R329, R333, R385, R387), what each
opcode does (R335, R343, R346, R349), the response (R328, R331), and responses (R336). -/

namespace Sys2Proof.Machine

/-! ### The frame of every request -/

/-- The RESPONSE to a request that arrived on a port (R328, R331): routed towards the request's source module, on the
arrival port where no port is eligible, discarded when that port is no longer UP. A response without payload names no
payload byte as poisoned. Assumption log 105 (DEDUCED). -/
def State.respond (s : State) (n : Nat) (p : Pkt) (status : Nat) (data : List Byte) (poison : Nat) : State :=
  let r : Pkt := Pkt.sealed
    { opcode := opResponse, flags := (if status = stOk then 16 * (poison % 16) else 0), length := p.length, source := BitVec.ofNat 12 s.modnum
      srcDie := n / 8, dst := p.source, address := p.address, txn := p.txn, aux := status
      payload := if status = stOk then data else [] }
  match routePort (s.routeEntry none p.source.toNat) s.upMask 0xFFFFFFFF p.address.toNat with
  | some k => s.enqueue k r
  | none => if s.linkState n = lsUp then s.enqueue n r else s

/-- A packet for another module is discarded and counted (R333). Assumption log 104 (DEDUCED). -/
def State.misrouted (s : State) : State := s.note F.RIG_EVENTS_MISROUTED (R.RIG_COUNT 7)

/-- Counts a request's outcome (R361): OPS_SERVED when performed, REMOTE_DENIED when refused with ADDR_UNMAPPED or
ACCESS_DENIED. Assumption log 107 (DEDUCED). -/
def State.countServed (s : State) (status : Nat) : State :=
  if status = stOk then s.rigCnt 1
  else if status = stUnmapped ∨ status = stDenied then s.note F.RIG_EVENTS_REMOTE_DENIED (R.RIG_COUNT 9)
  else s

/-- Whether a request addresses the control space. -/
def Pkt.atCtl (p : Pkt) : Bool :=
  match placeOf (gOff p.address.toNat) with
  | .ctl _ => true
  | _ => false

/-- Whether the module refuses every request of a packet's source, or all but control-space reads (R385, R387).
Assumption log 104 (DEDUCED). -/
def State.shutOut (s : State) (p : Pkt) : Bool :=
  s.fenced p.source.toNat || (s.modState = msFailed && !(p.opcode = opRead && p.atCtl))

/-- A request with opcode `op` arrives: accepted by the link layer (R323), checked, performed by `f` (status, data,
POISON bits, state), counted and answered. Assumption log 104 (DEDUCED). -/
def State.request (s : State) (n : Nat) (p : Pkt) (op : Nat) (f : State → Nat × List Byte × Nat × State) : State :=
  if p.opcode ≠ op then s else
  let (ok, s1) := s.accept n p
  if !ok then s1
  else if !s1.isOwn p.dst.toNat then s1.misrouted
  else if p.e2e ≠ p.e2eTag then (s1.note F.RIG_EVENTS_E2E_ERROR (R.RIG_COUNT 6)).respond n p stE2e [] 0
  else
    let (st, d, pz, s2) := if s1.shutOut p then (stDenied, [], 0, s1) else f s1
    (s2.countServed st).respond n p st d pz

/-- POISON bits of a packet. -/
def Pkt.poison (p : Pkt) : Nat := bits p.flags 4 4
/-- The requester of a packet. -/
def Pkt.src (p : Pkt) : Src := .rigging p.source
/-- The global address of a packet. -/
def Pkt.addr (p : Pkt) : Nat := p.address.toNat % 2 ^ 56
/-- SERVING. -/
def Pkt.serving (p : Pkt) : Bool := p.flags.testBit 2

/-- R327: a READ or WRITE stays inside one aligned 256-byte block. -/
def Pkt.crosses (p : Pkt) : Bool := decide (0 < p.length) && decide (p.addr / 256 ≠ (p.addr + p.length - 1) / 256)

/-! ### What each opcode does -/

/-- A READ (R335, R330). Assumption log 106 (DEDUCED). -/
def State.serveRead (s : State) (p : Pkt) : Nat × List Byte × Nat × State :=
  if p.crosses then (stMisaligned, [], 0, s)
  else if p.atCtl then
    let (st, d, s1) := s.ctlRead p.src p.addr p.length
    (st, d, 0, s1)
  else s.localRead p.src p.addr p.length p.serving

/-- The arrival counter a WRITE to a site window names (R335): none without AC_VALID; `inr` the reserved position.
Assumption log 80 (DEDUCED). -/
def Pkt.arrival (p : Pkt) : Option (Nat ⊕ Unit) :=
  match placeOf (gOff p.address.toNat) with
  | .site die row col _ =>
    if !p.aux.testBit 31 then none
    else if bits p.aux 24 2 = 3 then some (.inr ())
    else some (.inl (acKey (triadAt (siteOf die row col) (bits p.aux 24 2)) (bits p.aux 8 8) (bits p.aux 0 2)))
  | _ => none

/-- A WRITE (R335, R330): the counter it names rises once, performed or refused. -/
def State.serveWrite (s : State) (p : Pkt) : Nat × List Byte × Nat × State :=
  if p.crosses then (stMisaligned, [], 0, s) else
  let d := slice p.payload 0 p.length
  if p.atCtl then
    let (st, s1) := s.ctlWrite p.src p.addr d p.poison
    (st, [], 0, s1)
  else
    match p.arrival with
    | some (.inr _) => (stDenied, [], 0, s)
    | some (.inl k) =>
      let (st, s1) := s.localWrite p.src p.addr d p.poison p.serving
      (st, [], 0, s1.acAdd k 1)
    | none =>
      let (st, s1) := s.localWrite p.src p.addr d p.poison p.serving
      (st, [], 0, s1)

/-- An atomic (R327, R343 to R345): the operand, for ATOMIC_CAS the compare value first; poison in the operand marks the
unit it is stored to (R330). Assumption log 106 (DEDUCED). -/
def State.serveAtomic (s : State) (p : Pkt) : Nat × List Byte × Nat × State :=
  let n := p.length
  if n ≠ 4 ∧ n ≠ 8 then (stMisaligned, [], 0, s) else
  let (operand, compare) := if p.opcode = opCas then (leAt p.payload n n, leAt p.payload 0 n) else (leAt p.payload 0 n, 0)
  let (st, d, s1) := s.atomicLocal p.src p.opcode p.addr n operand compare p.serving
  let s2 := if st = stOk ∧ p.poison ≠ 0 then { s1 with hbmPoison := tset noMark s1.hbmPoison (gOff p.addr / 64) true } else s1
  (st, d, 0, s2)

/-- A REDUCE (R348, R349, Table 12.10). -/
def State.serveReduce (s : State) (p : Pkt) : Nat × List Byte × Nat × State :=
  let a := p.address.toNat
  let (st, s1) := s.reduceArrive (bits a 42 2) (bits a 34 8) (bits a 18 16) (bits a 0 18) (bits p.aux 0 12)
    (p.aux.testBit 12) p.payload p.poison
  (st, [], 0, s1)

/-- A DOORBELL (R346). -/
def State.serveDoorbell (s : State) (p : Pkt) : Nat × List Byte × Nat × State :=
  let (st, s1) := s.ringDoorbell (p.address.toNat % 65536) p.source.toNat p.aux p.payload (p.flags.testBit 4)
  (st, [], 0, s1)

/-! ### Meanings -/

/-- READ (R335, Table 12.5). `err` is what the error codes meet in HBM (State.memErr). -/
def execRead (port : Fin 32) (p : Pkt) (err : Fin 5) (s : State) : Host.Outcome State Fault Refusal :=
  doneJ (s.request port p opRead fun s =>
    (match placeOf (gOff p.addr) with
     | .hbm off => s.memErr off err.val
     | _ => s).serveRead p)

/-- WRITE (R335, R339). -/
def execWrite (port : Fin 32) (p : Pkt) (s : State) : Host.Outcome State Fault Refusal :=
  doneJ (s.request port p opWrite fun s => s.serveWrite p)

/-- ATOMIC_ADD (R343). -/
def execAtomicAdd (port : Fin 32) (p : Pkt) (s : State) : Host.Outcome State Fault Refusal :=
  doneJ (s.request port p opAdd fun s => s.serveAtomic p)

/-- ATOMIC_UMAX (R343). -/
def execAtomicUmax (port : Fin 32) (p : Pkt) (s : State) : Host.Outcome State Fault Refusal :=
  doneJ (s.request port p opUmax fun s => s.serveAtomic p)

/-- ATOMIC_SMAX (R343). -/
def execAtomicSmax (port : Fin 32) (p : Pkt) (s : State) : Host.Outcome State Fault Refusal :=
  doneJ (s.request port p opSmax fun s => s.serveAtomic p)

/-- ATOMIC_CAS (R343). -/
def execAtomicCas (port : Fin 32) (p : Pkt) (s : State) : Host.Outcome State Fault Refusal :=
  doneJ (s.request port p opCas fun s => s.serveAtomic p)

/-- REDUCE (R349). -/
def execReduce (port : Fin 32) (p : Pkt) (s : State) : Host.Outcome State Fault Refusal :=
  doneJ (s.request port p opReduce fun s => s.serveReduce p)

/-- DOORBELL (R346). -/
def execDoorbell (port : Fin 32) (p : Pkt) (s : State) : Host.Outcome State Fault Refusal :=
  doneJ (s.request port p opDoorbell fun s => s.serveDoorbell p)

/-- The operation a response ends (R328, R329): with the response's STATUS, data and POISON bits, or with E2E_ERROR and
poisoned data when its tag fails. -/
def State.endBy (s : State) (p : Pkt) (o : OutOp) : State :=
  let bad := decide (p.e2e ≠ p.e2eTag)
  let st := if bad then stE2e else p.aux % 256
  let a := o.pkt.address.toNat % 2 ^ 56
  let s1 := { s with rig := { s.rig with ops := tdel p.txn s.rig.ops } }
  ((s1.opError st a).endFor o.issuer st p.payload (if bad then 15 else p.poison) a o.pkt.payload).opsEnded

/-- RESPONSE (R328, R329, R333, R336, R387): a response to an operation that has ended is discarded and counted.
Assumption log 107 (DEDUCED). -/
def execResponse (port : Fin 32) (p : Pkt) (s : State) : Host.Outcome State Fault Refusal :=
  if p.opcode ≠ opResponse then done s else
  let (ok, s1) := s.accept port p
  if !ok then doneJ s1
  else if !s1.isOwn p.dst.toNat then doneJ s1.misrouted
  else if s1.fenced p.source.toNat then doneJ s1
  else match tfind p.txn s1.rig.ops with
    | none => doneJ (s1.rigCnt 4)
    | some o => doneJ (s1.endBy p o)

/-- Whether an opcode is reserved (Table 12.5). -/
def opReserved (op : Nat) : Bool :=
  !(decide (1 ≤ op) && decide (op ≤ 8)) && op != opResponse && !(decide (0x20 ≤ op) && decide (op ≤ 0x22))

/-- BAD_OPCODE (R327): discarded without response, and counted. -/
def execBadOpcode (port : Fin 32) (p : Pkt) (s : State) : Host.Outcome State Fault Refusal :=
  if !opReserved p.opcode then done s else
  let (ok, s1) := s.accept port p
  doneJ (if ok then s1.note F.RIG_EVENTS_BAD_OPCODE (R.RIG_COUNT 8) else s1)

end Sys2Proof.Machine
end

