-- ==== Sys2Proof/Machine/Dispatch.lean ====
section
/-! DEFINITION. The meaning of each command, by one direct call. -/

namespace Sys2Proof.Machine

/-- What a command does to everything but the queue. -/
def exec (i : Instr) (s : State) : Host.Outcome State Fault Refusal :=
  match i with
  | .registerWrite sender off data => Sys2Proof.Machine.execRegisterWrite sender off data s
  | .frameReceived p bytes phyErr reasmErr frags pre ago path => Sys2Proof.Machine.execFrameReceived p bytes phyErr reasmErr frags pre ago path s
  | .pauseExpired p => Sys2Proof.Machine.execPauseExpired p s
  | .fecCodewordDecoded p symbols uncorrectable => Sys2Proof.Machine.execFecCodewordDecoded p symbols uncorrectable s
  | .ethLinkUp p => Sys2Proof.Machine.execEthLinkUp p s
  | .ethLinkDown p rx align localF remoteF => Sys2Proof.Machine.execEthLinkDown p rx align localF remoteF s
  | .pauseResend p => Sys2Proof.Machine.execPauseResend p s
  | .txFrameStart p pathFail => Sys2Proof.Machine.execTxFrameStart p pathFail s
  | .txFrameEnd p pathFail => Sys2Proof.Machine.execTxFrameEnd p pathFail s
  | .preemptVerify p ok => Sys2Proof.Machine.execPreemptVerify p ok s
  | .preemptCtrlWrite p v => Sys2Proof.Machine.execPreemptCtrlWrite p v s
  | .portEnable p => Sys2Proof.Machine.execPortEnable p s
  | .portDisable p rx => Sys2Proof.Machine.execPortDisable p rx s
  | .nativeClear p incs => Sys2Proof.Machine.execNativeClear p incs s
  | .compatCounterRead sender p which inc => Sys2Proof.Machine.execCompatCounterRead sender p which inc s
  | .ptpNsRead sender => Sys2Proof.Machine.execPtpNsRead sender s
  | .ptpSecWrite v => Sys2Proof.Machine.execPtpSecWrite v s
  | .ptpNsWrite v => Sys2Proof.Machine.execPtpNsWrite v s
  | .ptpStepWrite v => Sys2Proof.Machine.execPtpStepWrite v s
  | .ptpRateWrite v => Sys2Proof.Machine.execPtpRateWrite v s
  | .swIdxWrite n v => Sys2Proof.Machine.execSwIdxWrite n v s
  | .descriptorFetched n ext => Sys2Proof.Machine.execDescriptorFetched n ext s
  | .ringEnable n => Sys2Proof.Machine.execRingEnable n s
  | .ringDisable n => Sys2Proof.Machine.execRingDisable n s
  | .txStage n => Sys2Proof.Machine.execTxStage n s
  | .txFrameStaged n exts => Sys2Proof.Machine.execTxFrameStaged n exts s
  | .completionTimer n => Sys2Proof.Machine.execCompletionTimer n s
  | .ledgerCheck p bytes ago pre memErr => Sys2Proof.Machine.execLedgerCheck p bytes ago pre memErr s
  | .echoWindowExpired id => Sys2Proof.Machine.execEchoWindowExpired id s
  | .updTimeout id => Sys2Proof.Machine.execUpdTimeout id s
  | .updateCommit id => Sys2Proof.Machine.execUpdateCommit id s
  | .controlVerify => Sys2Proof.Machine.execControlVerify s
  | .modelLoad ext => Sys2Proof.Machine.execModelLoad ext s
  | .modelSwitch => Sys2Proof.Machine.execModelSwitch s
  | .bufferFreed m b => Sys2Proof.Machine.execBufferFreed m b s
  | .planLoad ext => Sys2Proof.Machine.execPlanLoad ext s
  | .jobDispatch => Sys2Proof.Machine.execJobDispatch s
  | .mailboxRead sender m => Sys2Proof.Machine.execMailboxRead sender m s
  | .mailboxRelease sender m => Sys2Proof.Machine.execMailboxRelease sender m s
  | .cacheLookup id msg ago bad => Sys2Proof.Machine.execCacheLookup id msg ago bad s
  | .missFetchComplete slot ext => Sys2Proof.Machine.execMissFetchComplete slot ext s
  | .missTimeout slot => Sys2Proof.Machine.execMissTimeout slot s
  | .tableInvalidate mask => Sys2Proof.Machine.execTableInvalidate mask s
  | .invalidationWalkDone => Sys2Proof.Machine.execInvalidationWalkDone s
  | .writebackAck table entity ok => Sys2Proof.Machine.execWritebackAck table entity ok s
  | .writebackRetry table entity => Sys2Proof.Machine.execWritebackRetry table entity s
  | .sampleStart => Sys2Proof.Machine.execSampleStart s
  | .sampleComplete id bad fixed => Sys2Proof.Machine.execSampleComplete id bad fixed s
  | .nodeScrub err => Sys2Proof.Machine.execNodeScrub err s
  | .replyLaunch id => Sys2Proof.Machine.execReplyLaunch id s
  | .replyClose id => Sys2Proof.Machine.execReplyClose id s
  | .offloadInputSlot die late => Sys2Proof.Machine.execOffloadInputSlot die late s
  | .offloadOutput id outs poison becalms => Sys2Proof.Machine.execOffloadOutput id outs poison becalms s
  | .samplerArm p => Sys2Proof.Machine.execSamplerArm p s
  | .nop die row col strand => Sys2Proof.Machine.execNop die row col strand s
  | .endStrand die row col strand => Sys2Proof.Machine.execEnd die row col strand s
  | .loop die row col strand => Sys2Proof.Machine.execLoop die row col strand s
  | .send die row col strand err path => Sys2Proof.Machine.execSend die row col strand err path s
  | .await die row col strand => Sys2Proof.Machine.execAwait die row col strand s
  | .holdRelease => Sys2Proof.Machine.execHoldRelease s
  | .awaitTimeout => Sys2Proof.Machine.execAwaitTimeout s
  | .setac die row col strand => Sys2Proof.Machine.execSetac die row col strand s
  | .furl die row col strand => Sys2Proof.Machine.execFurl die row col strand s
  | .furlComplete die row col => Sys2Proof.Machine.execFurlComplete die row col s
  | .unfurl die row col strand => Sys2Proof.Machine.execUnfurl die row col strand s
  | .unfurlErase die row col bank => Sys2Proof.Machine.execUnfurlErase die row col bank s
  | .cset die row col strand => Sys2Proof.Machine.execCset die row col strand s
  | .censusFlushDone flush => Sys2Proof.Machine.execCensusFlushDone flush s
  | .vec die row col strand err => Sys2Proof.Machine.execVec die row col strand err s
  | .matmul die row col strand => Sys2Proof.Machine.execMatmul die row col strand s
  | .matmulStart die row col q errs => Sys2Proof.Machine.execMatmulStart die row col q errs s
  | .rescale die row col strand => Sys2Proof.Machine.execRescale die row col strand s
  | .rescaleStart die row col errs => Sys2Proof.Machine.execRescaleStart die row col errs s
  | .dmaCopy die row col strand err path => Sys2Proof.Machine.execDmaCopy die row col strand err path s
  | .dmaReformat die row col strand => Sys2Proof.Machine.execDmaReformat die row col strand s
  | .dmaFence die row col strand => Sys2Proof.Machine.execDmaFence die row col strand s
  | .dmaReduce die row col strand => Sys2Proof.Machine.execDmaReduce die row col strand s
  | .dmaPoll die row col strand => Sys2Proof.Machine.execDmaPoll die row col strand s
  | .dmaAtomicAdd die row col strand => Sys2Proof.Machine.execDmaAtomicAdd die row col strand s
  | .dmaAtomicUmax die row col strand => Sys2Proof.Machine.execDmaAtomicUmax die row col strand s
  | .dmaAtomicSmax die row col strand => Sys2Proof.Machine.execDmaAtomicSmax die row col strand s
  | .dmaAtomicCas die row col strand => Sys2Proof.Machine.execDmaAtomicCas die row col strand s
  | .dmaDoorbell die row col strand => Sys2Proof.Machine.execDmaDoorbell die row col strand s
  | .dmaTransferEnd cmd => Sys2Proof.Machine.execDmaTransferEnd cmd s
  | .sidePortAccess die row col phase r err => Sys2Proof.Machine.execSidePortAccess die row col phase r err s
  | .becalmEnd => Sys2Proof.Machine.execBecalmEnd s
  | .invocationDispatch => Sys2Proof.Machine.execInvocationDispatch s
  | .invocationEnd => Sys2Proof.Machine.execInvocationEnd s
  | .zeroingDone => Sys2Proof.Machine.execZeroingDone s
  | .resRelease owner => Sys2Proof.Machine.execResRelease owner s
  | .tileScrub die row col err => Sys2Proof.Machine.execTileScrub die row col err s
  | .hbmPatrol stack errs ondie => Sys2Proof.Machine.execHbmPatrol stack errs ondie s
  | .seqOpen q ext => Sys2Proof.Machine.execSeqOpen q ext s
  | .seqClose q ext => Sys2Proof.Machine.execSeqClose q ext s
  | .seqEnable q => Sys2Proof.Machine.execSeqEnable q s
  | .seqDisable q => Sys2Proof.Machine.execSeqDisable q s
  | .runBarrier arrivals ext => Sys2Proof.Machine.execRunBarrier arrivals ext s
  | .commitBarrier arrivals ext => Sys2Proof.Machine.execCommitBarrier arrivals ext s
  | .stepStateSeen state => Sys2Proof.Machine.execStepStateSeen state s
  | .rigPortTrained n => Sys2Proof.Machine.execRigPortTrained n s
  | .hello n frame => Sys2Proof.Machine.execHello n frame s
  | .prove n frame => Sys2Proof.Machine.execProve n frame s
  | .attestTimeout n => Sys2Proof.Machine.execAttestTimeout n s
  | .rigPortRetry n => Sys2Proof.Machine.execRigPortRetry n s
  | .rigPortDown n => Sys2Proof.Machine.execRigPortDown n s
  | .read port p err => Sys2Proof.Machine.execRead port p err s
  | .write port p => Sys2Proof.Machine.execWrite port p s
  | .atomicAdd port p => Sys2Proof.Machine.execAtomicAdd port p s
  | .atomicUmax port p => Sys2Proof.Machine.execAtomicUmax port p s
  | .atomicSmax port p => Sys2Proof.Machine.execAtomicSmax port p s
  | .atomicCas port p => Sys2Proof.Machine.execAtomicCas port p s
  | .reduce port p => Sys2Proof.Machine.execReduce port p s
  | .doorbell port p => Sys2Proof.Machine.execDoorbell port p s
  | .response port p => Sys2Proof.Machine.execResponse port p s
  | .linkAck n seq => Sys2Proof.Machine.execLinkAck n seq s
  | .linkNak n seq => Sys2Proof.Machine.execLinkNak n seq s
  | .linkCredit n aux => Sys2Proof.Machine.execLinkCredit n aux s
  | .ackTimer n => Sys2Proof.Machine.execAckTimer n s
  | .replayTimeout n => Sys2Proof.Machine.execReplayTimeout n s
  | .rekey n isTx => Sys2Proof.Machine.execRekey n isTx s
  | .operationTimeout txn => Sys2Proof.Machine.execOperationTimeout txn s
  | .pollRead cmd => Sys2Proof.Machine.execPollRead cmd s
  | .reduceRoundTimeout die group => Sys2Proof.Machine.execReduceRoundTimeout die group s
  | .redRetry cmd => Sys2Proof.Machine.execRedRetry cmd s
  | .submitGo sender => Sys2Proof.Machine.execSubmitGo sender s
  | .claimExpired => Sys2Proof.Machine.execClaimExpired s
  | .heartbeat => Sys2Proof.Machine.execHeartbeat s
  | .heartbeatCheck words declared => Sys2Proof.Machine.execHeartbeatCheck words declared s
  | .fenceWrite w v => Sys2Proof.Machine.execFenceWrite w v s
  | .epochOpen => Sys2Proof.Machine.execEpochOpen s
  | .checkpointPoint standby => Sys2Proof.Machine.execCheckpointPoint standby s
  | .checkpointDone => Sys2Proof.Machine.execCheckpointDone s
  | .epochCommit epoch admission => Sys2Proof.Machine.execEpochCommit epoch admission s
  | .epochAbandoned => Sys2Proof.Machine.execEpochAbandoned s
  | .serveEpochAdvance => Sys2Proof.Machine.execServeEpochAdvance s
  | .logRecordStored id => Sys2Proof.Machine.execLogRecordStored id s
  | .logWriteRetry id => Sys2Proof.Machine.execLogWriteRetry id s
  | .remap failed standby buddy ward owners tables writers members routes logFrom record rows => Sys2Proof.Machine.execRemap failed standby buddy ward owners tables writers members routes logFrom record rows s
  | .tableHold => Sys2Proof.Machine.execTableHold s
  | .leaseRenew result => Sys2Proof.Machine.execLeaseRenew result s
  | .leaseCheck word appointed => Sys2Proof.Machine.execLeaseCheck word appointed s
  | .nestLost => Sys2Proof.Machine.execNestLost s
  | .take => Sys2Proof.Machine.execTake s
  | .leave => Sys2Proof.Machine.execLeave s
  | .modeWrite v => Sys2Proof.Machine.execModeWrite v s
  | .svnAdvance v => Sys2Proof.Machine.execSvnAdvance v s
  | .rngHealthFail => Sys2Proof.Machine.execRngHealthFail s
  | .pcieTlpReceived kind ecrcBad ep off be data => Sys2Proof.Machine.execPcieTlpReceived kind ecrcBad ep off be data s
  | .powerOn => Sys2Proof.Machine.execPowerOn s
  | .resetPin => Sys2Proof.Machine.execResetPin s
  | .hostReset => Sys2Proof.Machine.execHostReset s
  | .perst low => Sys2Proof.Machine.execPerst low s
  | .restart => Sys2Proof.Machine.execRestart s
  | .wdtKick v => Sys2Proof.Machine.execWdtKick v s
  | .watchdogExpired => Sys2Proof.Machine.execWatchdogExpired s
  | .regulatorsGood => Sys2Proof.Machine.execRegulatorsGood s
  | .regulatorStartFail => Sys2Proof.Machine.execRegulatorStartFail s
  | .rootPllLock => Sys2Proof.Machine.execRootPllLock s
  | .romBoot => Sys2Proof.Machine.execRomBoot s
  | .imageCopyTried headerA headerB image => Sys2Proof.Machine.execImageCopyTried headerA headerB image s
  | .startPlanner samples => Sys2Proof.Machine.execStartPlanner samples s
  | .selftest rows faulted => Sys2Proof.Machine.execSelftest rows faulted s
  | .hbmTraining ok => Sys2Proof.Machine.execHbmTraining ok s
  | .ready inUse first => Sys2Proof.Machine.execReady inUse first s
  | .linkWaitExpired => Sys2Proof.Machine.execLinkWaitExpired s
  | .plannerPeriod => Sys2Proof.Machine.execPlannerPeriod s
  | .reefGlide => Sys2Proof.Machine.execReefGlide s
  | .glideDone => Sys2Proof.Machine.execGlideDone s
  | .powerLoop watts reg => Sys2Proof.Machine.execPowerLoop watts reg s
  | .currentLimit iin => Sys2Proof.Machine.execCurrentLimit iin s
  | .thermalTrip => Sys2Proof.Machine.execThermalTrip s
  | .inputRemoved => Sys2Proof.Machine.execInputRemoved s
  | .overvoltage => Sys2Proof.Machine.execOvervoltage s
  | .overcurrent => Sys2Proof.Machine.execOvercurrent s
  | .sysRefclkLost => Sys2Proof.Machine.execSysRefclkLost s
  | .serdesRefclkLost => Sys2Proof.Machine.execSerdesRefclkLost s
  | .pcieRefclkLost => Sys2Proof.Machine.execPcieRefclkLost s
  | .smbSetOffset off => Sys2Proof.Machine.execSmbSetOffset off s
  | .smbRead32 => Sys2Proof.Machine.execSmbRead32 s
  | .smbRead64 => Sys2Proof.Machine.execSmbRead64 s
  | .bypass => Sys2Proof.Machine.execBypass s
  | .samplePreload sampled preload => Sys2Proof.Machine.execSamplePreload sampled preload s
  | .extest => Sys2Proof.Machine.execExtest s
  | .eventsClear off v hw => Sys2Proof.Machine.execEventsClear off v hw s
  | .msixUnmask vector => Sys2Proof.Machine.execMsixUnmask vector s
  | .monitorSample slackL slackS temp ro vin iin => Sys2Proof.Machine.execMonitorSample slackL slackS temp ro vin iin s
  | .hbmTemperatureReport stack temp => Sys2Proof.Machine.execHbmTemperatureReport stack temp s
  | .hbmStackFailed stack lost => Sys2Proof.Machine.execHbmStackFailed stack lost s
  | .leaseLapsed => Sys2Proof.Machine.execLeaseLapsed s
  | .submitStatusRead sender => Sys2Proof.Machine.execSubmitStatusRead sender s
  | .resetNReleased => Sys2Proof.Machine.execResetNReleased s
  | .serdesRefclkReturned => Sys2Proof.Machine.execSerdesRefclkReturned s
  | .mgmtCoreMemoryError => Sys2Proof.Machine.execMgmtCoreMemoryError s
  | .badOpcode port p => Sys2Proof.Machine.execBadOpcode port p s
  | .linkCheckFail n why => Sys2Proof.Machine.execLinkCheckFail n why s

end Sys2Proof.Machine
end

