-- ==== Sys2Proof/Safety.lean ====
section
/-! DEFINITION. The terms the claims use: when a command completes, what two states may differ in, and what the
interrupt lines must show in every state a step answers. -/

namespace Sys2Proof.Machine

/-- The command completes: it answers a next state, and that state has the property. -/
def Completes (c : Instr) (s : State) (P : State → Prop) : Prop := ∃ t, exec c s = .next t ∧ P t

/-- The parts of the state, for saying what a command leaves alone. What was sent and the lines that follow from the
registers are said apart (`State.sends`, `State.IrqOk`). -/
inductive Area where
  | pending | now | freeCtr | regs | upper | hbm | ptp | eth | rings | hly | cut | teu | hold | grid | job | rig | recov
  | boot | pwr | masks
  deriving DecidableEq, Repr

/-- One part of the state is as it was: every register reads as before and no event was set or cleared, every byte of HBM
and every mark of poison reads as before, every engine holds what it held. -/
def State.keeps (s t : State) : Area → Prop
  | .pending => t.pending = s.pending
  | .now => t.now = s.now
  | .freeCtr => t.freeCtr = s.freeCtr
  | .regs => (∀ a, t.rd a = s.rd a) ∧ t.evt = s.evt
  | .upper => t.upper = s.upper
  | .hbm => (∀ a, t.hbmByte a = s.hbmByte a) ∧ ∀ u, tget noMark t.hbmPoison u = tget noMark s.hbmPoison u
  | .ptp => t.ptp = s.ptp
  | .eth => t.eth = s.eth
  | .rings => t.rings = s.rings
  | .hly => t.hly = s.hly
  | .cut => t.cut = s.cut
  | .teu => t.teu = s.teu
  | .hold => t.hold = s.hold
  | .grid => t.grid = s.grid
  | .job => t.job = s.job
  | .rig => t.rig = s.rig
  | .recov => t.recov = s.recov
  | .boot => t.boot = s.boot
  | .pwr => t.pwr = s.pwr
  | .masks => t.irq.masked = s.irq.masked ∧ t.irq.funcMask = s.irq.funcMask

/-- Every part but those listed is as it was. -/
def State.same (s t : State) (but : List Area) : Prop := ∀ p, p ∉ but → s.keeps t p

/-- Every register but those of the given offsets reads as before. -/
def State.regsBut (s t : State) (offs : List Nat) : Prop := ∀ a, a ∉ offs → t.rd a = s.rd a

/-- What was sent stays sent, in its order; `sent` is what is new, newest first, MSI-X messages left out. -/
def State.sends (s t : State) (sent : List Out) : Prop :=
  ∃ vs : List Nat, t.out = vs.map Out.msix ++ (sent ++ s.out)

/-- The interrupt lines of a state (R491 to R493): a vector is asserted exactly when the registers say so, a message is
held only for an asserted vector, and ALERT_N is low exactly when a summary bit that ALERT_MASK enables is 1, from step
4 of the start on. -/
def State.IrqOk (s : State) : Prop :=
  s.irq.asserted = s.vectors ∧ s.irq.pending &&& s.irq.asserted = s.irq.pending ∧
  s.irq.alertLow = ((s.summary &&& (s.rd R.GL_ALERT_MASK).toNat) != 0 && decide (4 ≤ s.gf F.BOOT_STATUS_STEP))

/-- A port with nothing to send, nothing in progress and no request of its own open. -/
def State.quietPort (s : State) (p : Nat) : Prop :=
  (s.ethPort p).inProg = none ∧ (s.ethPort p).susp = none ∧ (s.ethPort p).waiting = [] ∧
  (s.ethPort p).genWait = none ∧ (s.ethPort p).staging = [] ∧ ∀ r ∈ s.cut.reqs, r.2.port ≠ p

/-- Where a port leads to the module an address names, a request packet of an issuer of a die has been issued: with room,
it is tracked under the next transaction number, with the address and payload given; without, it waits (R331, R336,
R357). -/
def State.issued (s t : State) (iss : Issuer) (die opcode addr : Nat) (bank : Option Nat) (payload : List Byte) :
    Prop :=
  ∀ n, s.issuePort iss addr bank = some n →
    if s.hasRoom iss die n = true then
      ∃ op, tfind s.rig.nextTxn t.rig.ops = some op ∧ op.issuer = iss ∧ op.port = n ∧ op.pkt.opcode = opcode ∧
        op.pkt.address = BitVec.ofNat 64 addr ∧ op.pkt.payload = payload
    else (t.rig.waiting.any fun w => w.issuer == iss && w.opcode == opcode && w.addr == addr && w.payload == payload) = true

/-- The lines of the feature cache once an UPDATE has committed one of its rows (R170). -/
def commitLine (u : UpdCtx) (ls : List (Nat × CacheLine)) (e : Nat) : List (Nat × CacheLine) :=
  match ls.find? fun x => decide (x.2.table = u.table) && decide (x.2.entity = e) with
  | none => ls
  | some (ln, l) =>
    tins ln { l with data := (u.entries.filter fun x => decide (x.entity = e)).foldl mergeRow l.data, wb := l.wb + 1 } ls

/-- The CONTROL_ACK of an operation has been offered to its port, where the link is up (R113). -/
def State.acked (s t : State) (m : CtlMsg) (status : Nat) (result : List Byte) : Prop :=
  m.port < 16 → s.linkUp m.port = true → ∃ f, (t.ethPort m.port).waiting = (s.ethPort m.port).waiting ++ [f] ∧
    f.kind = .ack m.id ∧ f.answerKind = hkControlAck ∧ f.answerBody = ctlAckBody (beAt m.msg 32 2) status result

/-- A job operation has answered: by its CONTROL_ACK, or in its bank of JOB_SUBMIT, whose BUSY has cleared (R364,
R366). -/
def State.answered (s t : State) (o : JobOp) (status : Nat) : Prop :=
  match o.ctl with
  | some m => ∃ result, s.acked t m status result
  | none => (t.bank o.bank).busy = false ∧ (t.bank o.bank).status = status

/-- The registers by which a grid shows what it runs (Tables 7.9, 7.10), which follow it at the end of every command that
touches it. -/
def dieRegs : List Nat :=
  [R.GRID_STATUS 0, R.GRID_STATUS 1, R.GRID_STATUS 2, R.GRID_STATUS 3, R.GRID_PLAN_CYCLE 0, R.GRID_PLAN_CYCLE 1,
   R.GRID_PLAN_CYCLE 2, R.GRID_PLAN_CYCLE 3]

/-- An instruction issues (R196, R215): the slot table of its site names its strand, the instruction fetched there is the
one the command names, no field of it is reserved, and the site is in bounds for its plan. -/
def State.issues (s : State) (i : Issue) (die : Fin 4) (row : Fin 32) (col : Fin 48) (strand : Byte) (op : Nat) : Prop :=
  s.issuing (siteN die row col) strand.toNat = some i ∧ s.run? i.key = some i.run ∧ i.ins.op = op ∧
  i.ins.reserved = false ∧ s.trespass i.run i.site = false ∧ s.boot.failing = false

/-- The tile after the issue: its slot is used and the strand has moved past the instruction and through its loops;
`g` is what the instruction does to the strand besides. -/
def Issue.tileAfter (i : Issue) (g : Strand → Strand) : Tile :=
  { i.tile with
    issued := some i.p, strands := tins i.by_.strand (g (i.st.goto (i.st.pc + i.ins.n))) i.tile.strands }

/-- The plan with the tile of the instruction as given and the rest as it was. -/
def Issue.runWith (i : Issue) (x : Tile) : Run := { i.run with tiles := tins i.site x i.run.tiles }

/-- The plan of the instruction has become `r`; every other plan and everything outside the grid but the registers `regs`
is as it was. -/
def State.ran (s t : State) (i : Issue) (r : Run) (regs : List Nat := []) : Prop :=
  t.run? i.key = some r ∧ (∀ k, k ≠ i.key → t.run? k = s.run? k) ∧ s.regsBut t (dieRegs ++ regs) ∧ s.same t [.grid, .regs] ∧
  s.sends t []

/-- … and so is the rest of the grid. -/
def State.ranOnly (s t : State) (i : Issue) (r : Run) (regs : List Nat := []) : Prop :=
  s.ran t i r regs ∧ t.grid = { s.grid with runs := t.grid.runs }

/-- The registers of a Rigging port that its link layer keeps, with those its encryption counts in. -/
def portRegs (n : Nat) : List Nat :=
  [R.RIGP_STATUS n, R.RIGP_EVENTS n, R.RIGP_EVENTS_REOCC n, R.RIG_EVENTS, R.RIG_EVENTS_REOCC, R.SEC_COUNT 5] ++
  (List.range 14).map fun k => R.RIGP_COUNT n k

/-- An attestation has failed for a reason (R428, Table 15.8): the port is in the reason's state, and the failure is
counted, recorded and an event of the module and of the port. -/
def State.attestFailed (s t : State) (n reason : Nat) : Prop :=
  t.linkState n = (if reason ≤ 7 then lsAttestFailed else if reason ≤ 9 then lsMiswired else lsEncMismatch) ∧
  t.gf F.SEC_EVENTS_ATTEST_FAILED = 1 ∧ t.gf F.RIG_EVENTS_PORT_EVENT = 1 ∧
  t.rd (R.SEC_COUNT 4) = BitVec.ofNat 64 (((s.rd (R.SEC_COUNT 4)).toNat + 1) % 2 ^ 48) ∧
  (s.flag F.SEC_EVENTS_ATTEST_FAILED = false → t.gf F.SEC_ATTEST_ERR_REC_REASON = reason ∧
    t.gf F.SEC_ATTEST_ERR_REC_PORT = n) ∧
  (t.rigPort n).priv = 0 ∧ (t.rigPort n).replay = [] ∧ (∀ k, k ≠ n → t.rigPort k = s.rigPort k) ∧
  s.regsBut t ([R.SEC_ATTEST_ERR_REC, R.SEC_COUNT 4, R.SEC_EVENTS, R.SEC_EVENTS_REOCC] ++ portRegs n) ∧
  s.same t [.rig, .regs] ∧ s.sends t []

/-- A packet arrives in order on a port that is up, on a link that is not encrypted (R323). -/
def State.arrives (s : State) (n : Nat) (p : Pkt) : Prop :=
  s.linkState n = lsUp ∧ s.flag (F.RIGP_CFG_ENC n) = false ∧ (s.rigPort n).rx.due = false ∧
  p.linkSeq = (s.rigPort n).rxSeq ∧ s.boot.failing = false

/-- A request packet arrives that the module is to perform: for it, with a good end-to-end tag, and not shut out
(R329, R333, R385, R387). -/
def State.admits (s : State) (n : Nat) (p : Pkt) : Prop :=
  s.arrives n p ∧ s.isOwn p.dst.toNat = true ∧ p.e2e = p.e2eTag ∧ s.shutOut p = false

/-- The RESPONSE to a packet has been given to its port, where one leads to its source: it waits in VC2 or has been sent
(R328, R331). -/
def State.responded (s t : State) (n : Nat) (p : Pkt) (status : Nat) (data : List Byte) : Prop :=
  let k := (routePort (s.routeEntry none p.source.toNat) s.upMask 0xFFFFFFFF p.address.toNat).getD n
  ∃ q : Pkt, q.opcode = opResponse ∧ q.aux = status ∧ q.txn = p.txn ∧ q.dst.toNat = p.source.toNat ∧
    q.payload = (if status = stOk then data else []) ∧
    (q ∈ (t.rigPort k).q2 ∨ ∃ w, Out.packet k q w ∈ t.out)

/-- No Ethernet link is up and no Rigging port trains or is up. -/
def State.dark (s : State) : Prop := (∀ p, p < 16 → s.linkUp p = false) ∧ ∀ n, n < 32 → s.linkState n = lsOff

/-- A start has been taken back to `step` with a cause (R438): every register but BOOT_STATUS has its reset value, every
memory and engine is as after reset, and only fuses, reset controller, input side, reference clocks and test port are
kept. -/
def State.restarted (s t : State) (cause step : Nat) : Prop :=
  t.gf F.BOOT_STATUS_STEP = step ∧ (∀ a, a ≠ R.BOOT_STATUS → t.rd a = regReset a) ∧ t.boot.cause = cause ∧
  t.boot.fuse = s.boot.fuse ∧ t.boot.resetLow = s.boot.resetLow ∧ t.boot.perstLow = s.boot.perstLow ∧
  t.boot.readyAt = none ∧ t.boot.firmware = false ∧ State.reset.same t [.pending, .now, .freeCtr, .regs, .boot, .pwr] ∧
  t.pending = s.pending ∧ t.freeCtr = s.freeCtr ∧ s.sends t []

/-- A latched shutdown (R473): every regulator is off, the start is back before its first step, and FAULT_CODE is
held. -/
def State.shutDown (s t : State) (code : Nat) : Prop :=
  s.restarted t s.boot.cause 0 ∧ t.pwr.latch = code ∧ t.pwr.good = false ∧ t.pwr.vinUp = true ∧ t.pwr.smbAddr = none

/-- The canonical form of the memories of the state: HBM bytes, poison marks, registers. -/
def State.tablesOk (s : State) : Prop :=
  Memory.wf s.hbm = true ∧ twf noMark s.hbmPoison = true ∧ twf regReset s.regs = true

end Sys2Proof.Machine
end

