-- ==== Sys2Proof/Certificates/Slice0/Obligations.lean ====
section
/-! DEFINITION. The statements about this block. Each cites in OBLIGATIONS.json the rules of spec/ it formalises; an
assumption log entry a statement rests on is named in its docstring. -/

open Sys2Proof Sys2Proof.Machine


/-! ### The block as a whole -/

/-- A step with a command at the front of the queue runs that command with the queue's rest. -/
def Obligations.StepRunsFront : Prop :=
  ∀ (c : Instr) (rest : List Instr) (s : State), s.pending = c :: rest → step s = exec c { s with pending := rest }

/-- A step with nothing waiting lets one CK_NET cycle pass (the model's choice, assumption log 1): with the grid idle
the clock of the machine and the PTP clock move, the latter by the step of R66 once it runs, and no register, memory or
engine does. -/
def Obligations.IdleStep : Prop :=
  ∀ s : State, s.pending = [] → s.grid.idle = true → ∃ t, step s = .next t ∧ t.now = s.now + 1 ∧
    t.ptp.clock = (if s.ptpRuns then ofUnits (s.ptp.clock.units + ptpStep s.divN (s.gf F.ETH_PTP_RATE_RATE)) else
      s.ptp.clock) ∧ t.ptp.staged = s.ptp.staged ∧ (∀ k, t.ptpLatch k = s.ptpLatch k) ∧
    s.same t [.now, .ptp] ∧ s.sends t []

/-- Every command, on every state, answers a next state: no command of this block faults or is refused. -/
def Obligations.EveryCommandAnswers : Prop :=
  ∀ (c : Instr) (s : State), ∃ t, exec c s = .next t

/-- After every step, from any state, the interrupt lines show what the registers say (R491 to R493). -/
def Obligations.InterruptLines : Prop :=
  ∀ s t : State, step s = .next t → t.IrqOk

/-- The memories of the state keep their canonical form over every step: HBM bytes, poison marks and registers are listed
in rising order, none with the value that an unlisted one reads as, so that equal memories are equal data. -/
def Obligations.MemoriesCanonical : Prop :=
  ∀ s t : State, s.tablesOk → step s = .next t → t.tablesOk

/-- Reset (R9): with no image loaded, every register reads as its Reset column gives, every cfg field as 0; nothing
waits, nothing has been sent, the PTP clock holds 0 (R66), every byte of HBM reads as zero (R452), the
memories are in canonical form and the interrupt lines show what the registers say. -/
def Obligations.StateAfterReset : Prop :=
  (∀ off, State.reset.rd off = regReset off) ∧ State.reset.pending = [] ∧ State.reset.out = [] ∧
  State.reset.ptp.clock = ⟨0, 0, 0⟩ ∧ (∀ a, State.reset.hbmByte a = 0) ∧ State.reset.tablesOk ∧
  State.reset.rd R.MODULE_STATE = 0 ∧ State.reset.rd (R.ETH_HALF_ENABLE 3) = 0xFFFFFFFFFFFFF ∧
  State.reset.IrqOk

/-! ### Ethernet ports -/

/-- The PTP registers (R76, R66): a read of PTP_NS returns the nanoseconds and loads the requester's latch with fraction
and seconds of the same instant; PTP_SEC stages; PTP_NS sets the clock to the staged seconds, or is ignored above
999,999,999; PTP_STEP adds its signed nanoseconds; PTP_RATE changes the rate. Nothing else changes. -/
def Obligations.PtpRegisters : Prop :=
  (∀ (src : Src) (s : State), Completes (.ptpNsRead src) s fun t =>
    t.ptpLatch (latchOf src) = ⟨s.ptp.clock.frac16, s.ptp.clock.sec⟩ ∧
    (∀ k, k ≠ latchOf src → t.ptpLatch k = s.ptpLatch k) ∧
    s.sends t [.completion (srcCode src) stOk (leBytes 4 s.ptp.clock.ns)] ∧
    t.ptp.clock = s.ptp.clock ∧ t.ptp.staged = s.ptp.staged ∧ s.same t [.ptp]) ∧
  (∀ (v : W64) (s : State), Completes (.ptpSecWrite v) s fun t =>
    t.ptp = { s.ptp with staged := v.toNat % 2 ^ 48 } ∧ s.same t [.ptp] ∧ s.sends t []) ∧
  (∀ (v : W32) (s : State), Completes (.ptpNsWrite v) s fun t =>
    t.ptp = { s.ptp with clock := if v.toNat ≤ 999999999 then ⟨s.ptp.staged, v.toNat, 0⟩ else s.ptp.clock } ∧
    s.same t [.ptp] ∧ s.sends t []) ∧
  (∀ (v : W32) (s : State), Completes (.ptpStepWrite v) s fun t =>
    t.ptp = { s.ptp with clock := s.ptp.clock.shift (v.toInt * 2 ^ 48) } ∧ s.same t [.ptp] ∧ s.sends t []) ∧
  (∀ (v : W32) (s : State), Completes (.ptpRateWrite v) s fun t =>
    t.gf F.ETH_PTP_RATE_RATE = v.toNat ∧ s.regsBut t [R.ETH_PTP_RATE] ∧ s.same t [.regs] ∧ s.sends t [])

/-- NATIVE_CLEAR (R72): all 52 native counters of the port become 0, and a counter that an increment reaches in the same
cycle holds that increment. Compatibility counters follow their own increments (R73) and stay otherwise. -/
def Obligations.NativeClear : Prop :=
  ∀ (p : Fin 16) (incs : List (Fin 52 × Nat)) (s : State), (incs.map Prod.fst).Nodup →
    (∀ e ∈ incs, e.2 < 2 ^ 39) →
    Completes (.nativeClear p incs) s fun t =>
      (∀ i : Fin 52, (∀ e ∈ incs, e.1 ≠ i) → t.rd (R.ETH_COUNTER p i) = 0) ∧
      (∀ e ∈ incs, t.rd (R.ETH_COUNTER p e.1) = BitVec.ofNat 64 e.2) ∧
      (∀ a, (∀ i : Fin 52, a ≠ R.ETH_COUNTER p i) → ¬ (0x700000 + p.val * 0x100 ≤ a ∧ a < 0x700000 + p.val * 0x100 + 0x60) →
        t.rd a = s.rd a) ∧
      s.same t [.regs]

/-- COMPAT_COUNTER_READ (R73, R74): the read returns the value held before its cycle, and the counter then holds the
increment of that cycle; no other register changes. -/
def Obligations.CompatCounterRead : Prop :=
  ∀ (src : Src) (p : Fin 16) (i : Fin 24) (inc : W32) (s : State), Completes (.compatCounterRead src p i inc) s fun t =>
    t.rd (R.ETH_COMPAT p i) = BitVec.ofNat 64 inc.toNat ∧ s.regsBut t [R.ETH_COMPAT p i] ∧
    s.sends t [.completion (srcCode src) stOk (leBytes 4 (s.rd (R.ETH_COMPAT p i)).toNat)] ∧ s.same t [.regs]

/-- FEC_CODEWORD_DECODED (R69, Table 2.4, R362): on an Ethernet port an uncorrectable codeword adds 1 to counter 46; a
corrected one adds 1 to counter 45 and its symbols to counter 47; on a Rigging port counters 8 and 7 count them. -/
def Obligations.FecCodewords : Prop :=
  ∀ (p : Fin 48) (symbols : Byte) (s : State),
    (∀ u : Bool, Completes (.fecCodewordDecoded p symbols u) s (s.same · [.regs])) ∧
    (p.val < 16 →
      (Completes (.fecCodewordDecoded p symbols true) s fun t =>
        t.rd (R.ETH_COUNTER p 46) = BitVec.ofNat 64 (((s.rd (R.ETH_COUNTER p 46)).toNat + 1) % 2 ^ 40) ∧
        t.rd (R.ETH_COUNTER p 45) = s.rd (R.ETH_COUNTER p 45) ∧ t.rd (R.ETH_COUNTER p 47) = s.rd (R.ETH_COUNTER p 47)) ∧
      (symbols ≠ 0 → Completes (.fecCodewordDecoded p symbols false) s fun t =>
        t.rd (R.ETH_COUNTER p 45) = BitVec.ofNat 64 (((s.rd (R.ETH_COUNTER p 45)).toNat + 1) % 2 ^ 40) ∧
        t.rd (R.ETH_COUNTER p 47) =
          BitVec.ofNat 64 (((s.rd (R.ETH_COUNTER p 47)).toNat + symbols.toNat) % 2 ^ 40) ∧
        t.rd (R.ETH_COUNTER p 46) = s.rd (R.ETH_COUNTER p 46))) ∧
    (16 ≤ p.val →
      (Completes (.fecCodewordDecoded p symbols true) s fun t =>
        t.rd (R.RIGP_COUNT (p.val - 16) 8) =
          BitVec.ofNat 64 (((s.rd (R.RIGP_COUNT (p.val - 16) 8)).toNat + 1) % 2 ^ 48) ∧
        s.regsBut t [R.RIGP_COUNT (p.val - 16) 8]) ∧
      (symbols ≠ 0 → Completes (.fecCodewordDecoded p symbols false) s fun t =>
        t.rd (R.RIGP_COUNT (p.val - 16) 7) =
          BitVec.ofNat 64 (((s.rd (R.RIGP_COUNT (p.val - 16) 7)).toNat + 1) % 2 ^ 48) ∧
        s.regsBut t [R.RIGP_COUNT (p.val - 16) 7]))

/-- Preemption (R57, R75): verification reaches SUCCEEDED or FAILED, ACTIVE follows R57, and FAILED sets its event; a
write to PREEMPT_CTRL is held, and acts at once on a port that sends nothing. -/
def Obligations.PreemptionControl : Prop :=
  (∀ (p : Fin 16) (s : State), s.gf (F.ETH_PREEMPT_STATUS_VERIFY_STATUS p) = 2 →
    (Completes (.preemptVerify p true) s fun t =>
      t.gf (F.ETH_PREEMPT_STATUS_VERIFY_STATUS p) = 3 ∧
      t.gf (F.ETH_PREEMPT_STATUS_ACTIVE p) = b2n ((s.ethPort p).preemptEff.testBit 0 && s.linkUp p) ∧
      s.regsBut t [R.ETH_PREEMPT_STATUS p] ∧ s.same t [.regs] ∧ s.sends t []) ∧
    (Completes (.preemptVerify p false) s fun t =>
      t.gf (F.ETH_PREEMPT_STATUS_VERIFY_STATUS p) = 4 ∧ t.gf (F.ETH_PORT_EVENTS_VERIFY_FAILED p) = 1 ∧
      t.gf (F.ETH_PREEMPT_STATUS_ACTIVE p) =
        b2n ((s.ethPort p).preemptEff.testBit 0 && s.linkUp p && (s.ethPort p).preemptEff.testBit 1) ∧
      s.regsBut t [R.ETH_PREEMPT_STATUS p, R.ETH_PORT_EVENTS p, R.ETH_PORT_EVENTS_REOCC p] ∧ s.same t [.regs] ∧
      s.sends t [])) ∧
  (∀ (p : Fin 16) (v : W32) (s : State), Completes (.preemptCtrlWrite p v) s fun t =>
    t.rd (R.ETH_PREEMPT_CTRL p) = BitVec.ofNat 64 (v.toNat &&& 0xFFFF0F) ∧
    ((s.ethPort p).inProg = none → (s.ethPort p).susp = none → (t.ethPort p).preemptEff = v.toNat &&& 0xFFFF0F) ∧
    ((s.ethPort p).inProg ≠ none → (t.ethPort p).preemptEff = (s.ethPort p).preemptEff) ∧
    s.regsBut t [R.ETH_PREEMPT_CTRL p, R.ETH_PREEMPT_STATUS p] ∧ s.same t [.regs, .eth] ∧ s.sends t [])

/-- The link of a port (R43, R46, Table 2.8): it comes up on an enabled port of a module past step 6 whose clock runs;
going down, it ends every pause and sets LINK_DOWN, and ALIGN_LOST exactly when alignment was lost; ENABLE starts
training or powers the lanes down. -/
def Obligations.PortLink : Prop :=
  (∀ (p : Fin 16) (s : State), s.portOn p = true → s.linkUp p = false → msLinking ≤ s.modState → s.modState ≠ msFailed →
    s.pwr.serdesLost = false → Completes (.ethLinkUp p) s fun t =>
      t.gf (F.ETH_PORT_STATUS_LINK_UP p) = 1 ∧ t.gf (F.ETH_PORT_STATUS_ALIGNED p) = 1 ∧
      t.gf (F.ETH_PORT_STATUS_LOCAL_FAULT p) = 0 ∧ t.gf (F.ETH_PORT_STATUS_REMOTE_FAULT p) = 0 ∧
      s.regsBut t [R.ETH_PORT_STATUS p, R.ETH_PREEMPT_STATUS p] ∧ s.same t [.regs] ∧ s.sends t []) ∧
  (∀ (p : Fin 16) (align localF remoteF : Bool) (s : State), s.portOn p = true → s.linkUp p = true → s.quietPort p →
    Completes (.ethLinkDown p none align localF remoteF) s fun t =>
      t.gf (F.ETH_PORT_STATUS_LINK_UP p) = 0 ∧ t.rd (R.ETH_FC_STATE p) = 0 ∧ (t.ethPort p).pauseEnd = 0 ∧
      (t.ethPort p).pfcEnd = [] ∧ t.gf (F.ETH_PORT_EVENTS_LINK_DOWN p) = 1 ∧
      t.gf (F.ETH_PORT_EVENTS_ALIGN_LOST p) =
        (if align && s.flag (F.ETH_PORT_STATUS_ALIGNED p) then 1 else s.gf (F.ETH_PORT_EVENTS_ALIGN_LOST p)) ∧
      (remoteF = true → t.gf (F.ETH_PORT_EVENTS_REMOTE_FAULT_SEEN p) = 1) ∧ s.same t [.regs, .eth] ∧ s.sends t []) ∧
  (∀ (p : Fin 16) (s : State), Completes (.portEnable p) s fun t =>
    t.gf (F.ETH_PORT_CTRL_ENABLE p) = 1 ∧ s.regsBut t [R.ETH_PORT_CTRL p] ∧ s.same t [.regs] ∧ s.sends t []) ∧
  (∀ (p : Fin 16) (rx : Option (List Byte × Bool × Nat)) (s : State), s.portOn p = true →
    Completes (.portDisable p rx) s fun t =>
      t.gf (F.ETH_PORT_CTRL_ENABLE p) = 0 ∧ t.rd (R.ETH_PORT_STATUS p) = 0)

/-- Pauses (R61 to R65): an accepted PAUSE frame in PAUSE mode holds the port for its time, counted in cycles at the
port's rate, or ends what is in force; the flag clears in the cycle after the pause's last; half a pause time after a
generated PAUSE the same frame is offered again while the spill buffer stays at XON_KIB or above (its source address is
the port's UCAST[0], assumption log 9). -/
def Obligations.PausesInForce : Prop :=
  (∀ (p : Fin 16) (b : List Byte) (pre : Bool) (ago : Nat) (s : State), s.linkUp p = true →
    (∃ r, s.boot.readyAt = some r ∧ r ≤ s.now - ago) → (pre = true → (s.ethPort p).preemptEff.testBit 0 = true) →
    s.macDrop p b false false = none → s.carriageOf p b = none →
    (s.frameInfo p b).etype = 0x8808 → beAt b (s.frameInfo p b).body 2 = 1 → s.fcMode p = 1 →
    Completes (.frameReceived p b false false 0 pre ago []) s fun t =>
      let q := beAt b ((s.frameInfo p b).body + 2) 2
      t.gf (F.ETH_FC_STATE_LINK_PAUSED p) = (if q = 0 then 0 else 1) ∧
      (t.ethPort p).pauseEnd = (if q = 0 then min (s.ethPort p).pauseEnd s.now
        else s.now + cdiv (q * 32 * s.divN * s.speedMul p) 1000) ∧
      t.rd (R.ETH_COUNTER p 23) = BitVec.ofNat 64 (((s.rd (R.ETH_COUNTER p 23)).toNat + 1) % 2 ^ 40) ∧
      s.same t [.regs, .eth] ∧ s.sends t []) ∧
  (∀ (p : Fin 16) (s : State), s.grid.idle = true → s.gf (F.ETH_FC_STATE_LINK_PAUSED p) = 1 →
    s.gf (F.ETH_FC_STATE_PRI_PAUSED p) = 0 → Completes (.pauseExpired p) s fun t =>
      t.now = max s.now ((s.ethPort p).pauseEnd + 1) ∧ t.gf (F.ETH_FC_STATE_LINK_PAUSED p) = 0 ∧
      s.regsBut t [R.ETH_FC_STATE p] ∧ s.same t [.regs, .now, .ptp] ∧ s.sends t []) ∧
  (∀ (p : Fin 16) (s : State), s.grid.idle = true → s.linkUp p = true → s.pauseGen p = true → s.fcMode p = 1 →
    (s.ethPort p).xoff = true → s.xonKib p * 1024 ≤ s.spillBytes p → Completes (.pauseResend p) s fun t =>
      (∃ f, (t.ethPort p).genWait = some f ∧ f.kind = .genPause ∧
        f.bytes = beBytes 6 0x0180C2000001 ++ beBytes 6 (s.gf (F.ETH_UCAST_ADDRESS p 0)) ++ beBytes 2 0x8808 ++
          beBytes 2 1 ++ beBytes 2 (s.gf (F.ETH_FC_TX_TX_PAUSE_TIME p))) ∧
      t.now = max s.now ((s.ethPort p).lastGen + cdiv (s.gf (F.ETH_FC_TX_TX_PAUSE_TIME p) * 16 * s.divN * s.speedMul p) 1000) ∧
      s.same t [.now, .ptp, .eth] ∧ s.sends t [])

/-- A dropped frame (R49, Table 2.2) is counted under exactly one native counter, the one of its highest-placed cause,
and a frame that its filters refuse leaves no other trace; path code errors met in it are counted as corrected or
uncorrectable, and the latter set PATH_UNCORR (R414). -/
def Obligations.DroppedFrame : Prop :=
  ∀ (p : Fin 16) (b : List Byte) (phy reasm : Bool) (ago : Nat) (path : List (BitVec 16 × Fin 3)) (c : Nat) (s : State),
    s.linkUp p = true →
    (∃ r, s.boot.readyAt = some r ∧ r ≤ s.now - ago) → s.carriageOf p b = none →
    s.macDrop p b phy reasm = some c → (s.destOk p (s.frameInfo p b) b && s.etypeOk p (s.frameInfo p b) b) = false →
    Completes (.frameReceived p b phy reasm 0 false ago path) s fun t =>
      let one := path.countP fun e => e.2 = 0
      let two := path.countP fun e => e.2 ≠ 0
      (0 < one → t.rd (R.SEC_COUNT 0) = BitVec.ofNat 64 (((s.rd (R.SEC_COUNT 0)).toNat + one) % 2 ^ 48)) ∧
      (0 < two → t.rd (R.SEC_COUNT 1) = BitVec.ofNat 64 (((s.rd (R.SEC_COUNT 1)).toNat + two) % 2 ^ 48)) ∧
      (t.gf F.SEC_EVENTS_PATH_UNCORR = 1 ↔ s.gf F.SEC_EVENTS_PATH_UNCORR = 1 ∨ 0 < two) ∧
      35 ≤ c ∧ c ≤ 41 ∧
      t.rd (R.ETH_COUNTER p c) = BitVec.ofNat 64 (((s.rd (R.ETH_COUNTER p c)).toNat + 1) % 2 ^ 40) ∧
      (∀ i, i < 52 → i ≠ c → t.rd (R.ETH_COUNTER p i) = s.rd (R.ETH_COUNTER p i)) ∧
      s.same t [.regs] ∧ s.sends t []

/-- The transmit arbiter (R93) and a frame's end (R56, R69): on a port with its link up, nothing in progress and its
settings in force, a generated PAUSE frame that waits starts before anything else; when it ends it is sent padded to 60
bytes with its FCS, and the port is free. -/
def Obligations.TransmitFrame : Prop :=
  (∀ (p : Fin 16) (f : TxFrame) (s : State), s.linkUp p = true → (s.ethPort p).inProg = none → (s.ethPort p).susp = none →
    (s.rd (R.ETH_PREEMPT_CTRL p)).toNat = (s.ethPort p).preemptEff →
    (s.ethPort p).genWait = some f → f.kind = .genPause → f.express = true →
    Completes (.txFrameStart p false) s fun t =>
      (∃ g, (t.ethPort p).inProg = some g ∧ g.kind = .genPause ∧ g.bytes = f.bytes ∧ g.startAt = s.now) ∧
      (t.ethPort p).genWait = none ∧ (t.ethPort p).lastGen = s.now ∧ t.hbm = s.hbm ∧ s.sends t []) ∧
  (∀ (p : Fin 16) (f : TxFrame) (s : State), s.grid.idle = true → (s.ethPort p).inProg = some f → f.kind = .genPause →
    f.frags = 0 → Completes (.txFrameEnd p false) s fun t =>
      (t.ethPort p).inProg = none ∧
      s.sends t [.frame p (f.bytes ++ List.replicate (60 - f.bytes.length) 0)
        (crc32 (f.bytes ++ List.replicate (60 - f.bytes.length) 0))] ∧ t.hbm = s.hbm)

/-- SAMPLER_ARM (R190): VALID clears and the sampler is armed. -/
def Obligations.SamplerArm : Prop :=
  ∀ (p : Fin 16) (s : State), Completes (.samplerArm p) s fun t =>
    t.gf (F.SAMPLE_CTRL_ARM p) = 1 ∧ t.gf (F.SAMPLE_CTRL_VALID p) = 0 ∧ s.regsBut t [R.SAMPLE_CTRL p] ∧
    s.same t [.regs] ∧ s.sends t []

/-! ### Hardware rings -/

/-- A write to SW_IDX (R82): ignored while ENABLE is 0; refused with IDX_ERR when it would move the index backwards, hold
more descriptors than the ring has, or pass DEV_IDX in a RECLOG or DOORBELL ring; stored otherwise. -/
def Obligations.SwIdxWrite : Prop :=
  ∀ (n : BitVec 16) (v : W32) (s : State),
    (s.ringOn n.toNat = false → Completes (.swIdxWrite n v) s fun t => s.same t [] ∧ s.sends t []) ∧
    (s.ringOn n.toNat = true →
      let sw := BitVec.ofNat 32 (s.swIdx n.toNat)
      let dev := BitVec.ofNat 32 (s.devIdx n.toNat)
      let c := s.ringClass n.toNat
      let bad := 2 ^ 31 ≤ (v - sw).toNat ∨ ((c = rcRx ∨ c = rcTx ∨ c = rcRecord) ∧ s.ringSize n.toNat < (v - dev).toNat) ∨
        ((c = rcReclog ∨ c = rcDoorbell) ∧ (dev - sw).toNat < (v - sw).toNat)
      (bad → Completes (.swIdxWrite n v) s fun t =>
        t.gf (F.RING_STATUS_IDX_ERR n.toNat) = 1 ∧ t.swIdx n.toNat = s.swIdx n.toNat ∧
        s.regsBut t [R.RING_STATUS n.toNat, R.RING_STATUS_REOCC n.toNat] ∧ s.same t [.regs] ∧ s.sends t []) ∧
      (¬ bad → Completes (.swIdxWrite n v) s fun t =>
        t.swIdx n.toNat = v.toNat ∧ s.regsBut t [R.RING_SW_IDX n.toNat] ∧ s.same t [.regs] ∧ s.sends t []))

/-- ENABLE of a ring (R100, Table 3.14): 0 to 1 sets both indices and DONE_COUNT to 0 and restarts the ring; 1 to 0 stops
it, the indices keeping their values, in every class, RX with no frame in progress included. -/
def Obligations.RingSwitch : Prop :=
  (∀ (n : BitVec 16) (s : State), s.ringOn n.toNat = false → Completes (.ringEnable n) s fun t =>
    t.ringOn n.toNat = true ∧ t.devIdx n.toNat = 0 ∧ t.swIdx n.toNat = 0 ∧ t.rd (R.RING_DONE_COUNT n.toNat) = 0 ∧
    t.ring n.toNat = {} ∧ (∀ k, k ≠ n.toNat → t.ring k = s.ring k) ∧
    s.regsBut t [R.RING_CFG n.toNat, R.RING_DEV_IDX n.toNat, R.RING_SW_IDX n.toNat, R.RING_DONE_COUNT n.toNat] ∧
    s.same t [.regs, .rings] ∧ s.sends t []) ∧
  (∀ (n : BitVec 16) (s : State), s.ringOn n.toNat = true →
    s.ringClass n.toNat ≠ rcRx → Completes (.ringDisable n) s fun t =>
      t.ringOn n.toNat = false ∧ (t.ring n.toNat).fetched = [] ∧ (∀ k, k ≠ n.toNat → t.ring k = s.ring k) ∧
      s.regsBut t [R.RING_CFG n.toNat] ∧ s.same t [.regs, .rings] ∧ s.sends t []) ∧
  (∀ (n : BitVec 16) (s : State), s.ringOn n.toNat = true →
    s.ringClass n.toNat = rcRx → (s.ring n.toNat).items = [] → Completes (.ringDisable n) s fun t =>
      t.ringOn n.toNat = false ∧ t.devIdx n.toNat = s.devIdx n.toNat ∧ t.swIdx n.toNat = s.swIdx n.toNat ∧
      (t.ring n.toNat).fetched = [] ∧ s.same t [.regs, .rings, .eth] ∧ s.sends t [])

/-- DESCRIPTOR_FETCHED (R497, R498): the read of the ring's next descriptor from host memory completes, well or in error.
It becomes usable in its place and the read position moves on by one; shown for RECORD rings and for RX rings that keep no
frame. A failed one with nothing before it completes at once: its fields are written, DEV_IDX advances, it is
counted and FETCH_ERR sets. -/
def Obligations.DescriptorFetched : Prop :=
  (∀ (n : BitVec 16) (ext : Option (List Byte)) (s : State), s.mayFetch n.toNat = true →
    (s.ringClass n.toNat = rcRecord ∨ s.ringClass n.toNat = rcRx ∧ (s.ring n.toNat).items = []) →
    (∀ d ∈ (s.ring n.toNat).fetched, d.ok = true) →
    (ext.isSome = true ∨ (s.ring n.toNat).fetched ≠ [] ∨ (s.ring n.toNat).items ≠ []) →
    (s.unitAddr n.toNat (s.ring n.toNat).readIdx).testBit 63 = false →
    Completes (.descriptorFetched n ext) s fun t =>
      t.ring n.toNat = { s.ring n.toNat with
        readIdx := ((s.ring n.toNat).readIdx + 1) % 2 ^ 32
        fetched := (s.ring n.toNat).fetched ++
          [⟨(s.ring n.toNat).readIdx, ext.isSome,
            match ext with | some l => slice l 0 32 | none => List.replicate 32 0, s.now⟩] } ∧
      (∀ k, k ≠ n.toNat → t.ring k = s.ring k) ∧ (∀ a, t.hbmByte a = s.hbmByte a) ∧ s.sends t []) ∧
  (∀ (n : BitVec 16) (s : State), s.mayFetch n.toNat = true → s.ringClass n.toNat = rcRecord →
    (s.ring n.toNat).items = [] → (s.ring n.toNat).fetched = [] → (s.rd (R.RING_IDX_MIRROR n.toNat)).toNat.testBit 62 = false →
    (s.unitAddr n.toNat (s.devIdx n.toNat) + 8).testBit 63 = false →
    (s.unitAddr n.toNat (s.ring n.toNat).readIdx).testBit 63 = false →
    Completes (.descriptorFetched n none) s fun t =>
      (t.ring n.toNat).fetched = [] ∧ (t.ring n.toNat).readIdx = ((s.ring n.toNat).readIdx + 1) % 2 ^ 32 ∧
      t.devIdx n.toNat = (s.devIdx n.toNat + 1) % 2 ^ 32 ∧ t.gf (F.RING_STATUS_FETCH_ERR n.toNat) = 1 ∧
      t.rd (R.RING_ERR_COUNT n.toNat) = BitVec.ofNat 64 (((s.rd (R.RING_ERR_COUNT n.toNat)).toNat + 1) % 2 ^ 32) ∧
      s.sends t [.hostWrite ((s.unitAddr n.toNat (s.devIdx n.toNat) + 8) % 2 ^ 63)
        (leBytes 4 0 ++ leBytes 2 9 ++ leBytes 2 6 ++ List.replicate 16 0)] ∧
      s.regsBut t [R.RING_DEV_IDX n.toNat, R.RING_STATUS n.toNat, R.RING_STATUS_REOCC n.toNat, R.RING_ERR_COUNT n.toNat] ∧
      s.same t [.regs, .rings])

/-- The transmit staging store (R91): the frame whose turn it is takes space once there is room; when all of it has been
read from host memory it becomes a candidate with its bytes in buffer order. -/
def Obligations.TransmitStaging : Prop :=
  (∀ (n : BitVec 16) (f : StagedTx) (s : State),
    (s.ethPort (s.ringPort n.toNat)).stagedOf n.toNat = some f →
    (s.ethPort (s.ringPort n.toNat)).nextStage = some n.toNat →
    (s.ethPort (s.ringPort n.toNat)).stagingUsed + f.len ≤ 32768 →
    Completes (.txStage n) s fun t =>
      (t.ethPort (s.ringPort n.toNat)).staging = (s.ethPort (s.ringPort n.toNat)).staging.map (fun g =>
        if g.ring = n.toNat then { g with reading := true } else g) ∧
      (∀ q, q ≠ s.ringPort n.toNat → t.ethPort q = s.ethPort q) ∧ s.same t [.eth] ∧ s.sends t []) ∧
  (∀ (n : BitVec 16) (f : StagedTx) (bufs : List (List Byte)) (s : State),
    (s.ethPort (s.ringPort n.toNat)).stagedOf n.toNat = some f → f.reading = true → f.ready = false →
    s.linkUp (s.ringPort n.toNat) = true → bufs.length = f.descs.length →
    (∀ d ∈ f.descs, (leAt d 0 8 / 64 * 64).testBit 63 = false) →
    Completes (.txFrameStaged n (bufs.map some)) s fun t =>
      (t.ethPort (s.ringPort n.toNat)).staging = (s.ethPort (s.ringPort n.toNat)).staging.map (fun g =>
        if g.ring = n.toNat then
          { g with ready := true, since := s.now
                   bytes := (List.zipWith (fun d b => slice b 0 (leAt d 8 4 % 2 ^ 17)) f.descs bufs).flatten }
        else g) ∧
      s.same t [.eth] ∧ s.sends t [])

/-- The completion timer (R101): IRQ_TIMER CK_TICK cycles after the first advance since a restart, COMPLETION sets. -/
def Obligations.CompletionTimer : Prop :=
  ∀ (n : BitVec 16) (c : Nat) (s : State), s.grid.idle = true → (s.ring n.toNat).timerFrom = some c →
    0 < s.gf (F.RING_IRQ_CTRL_IRQ_TIMER n.toNat) → s.flag (F.RING_STATUS_COMPLETION n.toNat) = false →
    Completes (.completionTimer n) s fun t =>
      t.gf (F.RING_STATUS_COMPLETION n.toNat) = 1 ∧
      t.now = max s.now (c + 32 * s.gf (F.RING_IRQ_CTRL_IRQ_TIMER n.toNat)) ∧
      s.regsBut t [R.RING_STATUS n.toNat, R.RING_STATUS_REOCC n.toNat] ∧ s.same t [.regs, .now, .ptp] ∧ s.sends t []

/-! ### Halyard: the ledger, UPDATEs, the update log -/

/-- The ledger check (R119, R120) of a carriage message that the filters accept, one cycle after its header: an unseen ID
takes an OPEN entry; one that is open is discarded as DUP_OPEN; a closed one of the same kind (and slot) is echoed, any
other is an ID_CONFLICT; a full ledger and a slot without a model let nothing in. An entry that reads as uncorrectable is
freed, counted in LEDGER_UNCORR, and the message is admitted afresh (R419; that it is this one, assumption log 137). -/
def Obligations.LedgerCheck : Prop :=
  ∀ (p : Fin 16) (b : List Byte) (ago : Nat) (pre : Bool) (ip off : Nat) (s : State),
    s.carriageOf p b = some (ip, off) → s.destOk p (s.frameInfo p b) b = true →
    s.etypeOk p (s.frameInfo p b) b = true → off + 32 ≤ b.length → beAt (slice b off 32) 0 1 = 1 →
    let h := slice b off 32
    let id := reqIdOf h
    let kind := kindOf h
    (kind = hkRequest ∨ kind = hkUpdate ∨ kind = hkControl) → s.recov.left = false →
    (kind = hkRequest → s.holdsModel (slotOf h) = false → Completes (.ledgerCheck p b ago pre false) s fun t =>
      tfind (flight p pre) t.hly.inMsg = some ⟨id, kind, slotOf h, .discard 8⟩ ∧ (∀ k, t.entry k = s.entry k) ∧
      s.same t [.hly] ∧ s.sends t []) ∧
    ((kind = hkRequest → s.holdsModel (slotOf h) = true) →
      (∀ e, s.entry id = some e → Completes (.ledgerCheck p b ago pre false) s fun t =>
        tfind (flight p pre) t.hly.inMsg = some ⟨id, kind, slotOf h,
          if e.isOpen then .discard 9
          else if e.kind = kind ∧ (kind = hkRequest → e.slot = slotOf h) then .echo else .discard 10⟩ ∧
        (∀ k, t.entry k = s.entry k) ∧ s.same t [.hly] ∧ s.sends t []) ∧
      (s.entry id = none → 262144 ≤ s.hly.ledger.length → Completes (.ledgerCheck p b ago pre false) s fun t =>
        tfind (flight p pre) t.hly.inMsg = some ⟨id, kind, slotOf h, .discard 11⟩ ∧ (∀ k, t.entry k = s.entry k) ∧
        s.same t [.hly] ∧ s.sends t []) ∧
      (s.entry id = none → s.hly.ledger.length < 262144 → Completes (.ledgerCheck p b ago pre false) s fun t =>
        tfind (flight p pre) t.hly.inMsg = some ⟨id, kind, slotOf h, .admitted s.hly.nextKey⟩ ∧
        t.entry id = some { isOpen := true, kind := kind, slot := if kind = hkRequest then slotOf h else 0, port := p.val,
                            epoch := s.gf F.REC_SERVE_EPOCH_EPOCH, order := s.hly.nextKey } ∧
        (∀ k, k ≠ id → t.entry k = s.entry k) ∧ t.hly.nextKey = s.hly.nextKey + 1 ∧
        s.regsBut t [R.HLY_LEDGER_OCC] ∧ s.same t [.hly, .cut, .regs] ∧ s.sends t []) ∧
      (∀ e, s.entry id = some e → s.hly.ledger.length ≤ 262144 → Completes (.ledgerCheck p b ago pre true) s fun t =>
        tfind (flight p pre) t.hly.inMsg = some ⟨id, kind, slotOf h, .admitted s.hly.nextKey⟩ ∧
        t.entry id = some { isOpen := true, kind := kind, slot := if kind = hkRequest then slotOf h else 0, port := p.val,
                            epoch := s.gf F.REC_SERVE_EPOCH_EPOCH, order := s.hly.nextKey } ∧
        (∀ k, k ≠ id → t.entry k = s.entry k) ∧
        t.rd (R.SEC_COUNT 9) = BitVec.ofNat 64 (((s.rd (R.SEC_COUNT 9)).toNat + 1) % 2 ^ 48) ∧
        t.gf F.SEC_EVENTS_LEDGER_UNCORR = 1 ∧ s.same t [.hly, .cut, .regs] ∧ s.sends t []))

/-- The echo window (R123): in the cycle in which it ends, the entry is freed and no other is. -/
def Obligations.EchoWindow : Prop :=
  ∀ (id : W64) (e : LedgerEntry) (s : State), s.entry id.toNat = some e → e.isOpen = false →
    Completes (.echoWindowExpired id) s fun t =>
      let u := s.advanceTo e.until_
      t.now = max s.now e.until_ ∧ t.entry id.toNat = none ∧ (∀ k, k ≠ id.toNat → t.entry k = u.entry k) ∧
      u.regsBut t [R.HLY_LEDGER_OCC] ∧ u.same t [.hly, .regs] ∧ u.sends t []

/-- UPD_TIMEOUT (R123, R128), shown with no other UPDATE and no log record open: the UPDATE is freed with its entry, every
line it had pinned loses that pin, and the event and UPD_TIMEOUTS record it; no UPDATE_ACK is sent. -/
def Obligations.UpdateTimeout : Prop :=
  ∀ (id : W64) (key : Nat) (u : UpdCtx) (s : State), s.hly.upds = [(key, u)] → u.id = id.toNat → u.begun = false →
    s.recov.logs = [] → s.rig.ended = [] → s.grid.idle = true →
    Completes (.updTimeout id) s fun t =>
      t.now = max s.now u.limit ∧ t.hly.upds = [] ∧ t.entry u.id = none ∧ (∀ k, k ≠ u.id → t.entry k = s.entry k) ∧
      t.cut.lines = (u.pinned.foldl (fun s e => s.unpin u.table e) s).cut.lines ∧
      t.gf F.HLY_EVENTS_UPD_TIMEOUT = 1 ∧
      t.rd (R.HLY_COUNT 13) = BitVec.ofNat 64 (((s.rd (R.HLY_COUNT 13)).toNat + 1) % 2 ^ 48) ∧
      s.regsBut t [R.HLY_LEDGER_OCC, R.CUT_QUEUE_OCC, R.CUT_PIN_OCC, R.HLY_COUNT 13, R.HLY_EVENTS, R.HLY_EVENTS_REOCC] ∧
      s.same t [.now, .ptp, .hly, .cut, .regs] ∧ s.sends t []

/-- UPDATE_COMMIT (R126, R127, R170), shown for the only UPDATE that is open: it commits in the cycle after the later of
its log record's storage and its last pin; every line it names then holds its row with the values of its entries, in
ascending order, and one write-back more; its context and its log record are gone. -/
def Obligations.UpdateCommit : Prop :=
  ∀ (id : W64) (key a b : Nat) (u : UpdCtx) (s : State), s.hly.upds = [(key, u)] → u.id = id.toNat →
    u.stored = some a → u.pinnedAt = some b → s.grid.idle = true → Completes (.updateCommit id) s fun t =>
      let v := s.advanceTo (max a b + 1)
      t.now = max s.now (max a b + 1) ∧ t.hly.upds = [] ∧
      t.cut.lines = u.rows.foldl (commitLine u) v.cut.lines ∧ (∀ r ∈ t.recov.logs, r.key ≠ key) ∧
      v.same t [.hly, .cut, .eth, .regs, .hbm, .hold, .grid, .rig, .recov]

/-- The update log (R394): the buddy's report of storage is kept with the UPDATE, at its first arrival; a write that
failed goes out again, as a packet where a port leads to the buddy, 75 CK_TICK cycles after its failure. -/
def Obligations.UpdateLog : Prop :=
  (∀ (id : W64) (key : Nat) (u : UpdCtx) (r : LogRec) (s : State),
    (s.hly.upds.find? fun x => decide (x.2.id = id.toNat)) = some (key, u) →
    (s.logTake.recov.logs.find? fun r => decide (r.key = key)) = some r → (r.hdr = 1 ∨ r.hdr = 2) →
    Completes (.logRecordStored id) s fun t =>
      tfind key t.hly.upds = some { u with stored := some (u.stored.getD s.now) } ∧
      (∀ k, k ≠ key → tfind k t.hly.upds = tfind k s.hly.upds) ∧ t.now = s.now ∧
      s.same t [.hly, .regs, .hbm, .hold, .grid, .rig, .recov]) ∧
  (∀ (id : W64) (r : LogRec) (a c : Nat) (d : List Byte) (s : State), s.recov.logs = [r] → r.id = id.toNat →
    s.rig.ended = [] → r.cancel = false → r.failed = [(a, d, c)] → r.hdr ≠ 3 → s.grid.idle = true →
    s.isOwn (gModule a) = false → s.issuePort (.updateEngine 1 r.key) a (some r.epoch) ≠ none →
    Completes (.logWriteRetry id) s fun t =>
      t.now = max s.now (c + 32 * 75) ∧ t.recov.logs = [{ r with failed := [], out := r.out + 1 }] ∧
      s.issued t (.updateEngine 1 r.key) 0 opWrite a (some r.epoch) d ∧
      s.same t [.now, .ptp, .regs, .rig, .recov])

/-! ### The serving path -/

/-- CACHE_LOOKUP (R115, R163 to R167, R171): shown for templates without a key and with one key. The fields of the
template fill their features; a key that hits adds its row's features and is counted; the sample of a complete vector
takes its place in the sample queue (the features of a line that reads as uncorrectable carry poison, the read is
counted in FCACHE_UNCORR, and the line is invalidated, or marked when it is pinned, R419), whose order is that of the ready cycles and within one that of the ports (R142); a key that misses takes a miss slot, and its
request waits in assembly. -/
def Obligations.CacheLookup : Prop :=
  ∀ (id : W64) (key : Nat) (c : ReqCtx) (m : List Byte) (ago : Nat) (s : State), s.reqOf id.toNat = some (key, c) →
    c.stage = .admitted → c.waits = [] → c.msg.length < m.length → (s.modelBuf c.slot c.buf).neural = false →
    s.teu.queue.length ≤ 1024 → s.cut.walkTables = 0 →
    (s.templateKeys c.tmpl m = [] → Completes (.cacheLookup id m ago []) s fun t =>
      t.teu.queue = s.queueIn s.teu.queue key (s.now - ago + 25) c.port ∧
      tfind key t.cut.reqs = some { c with
        stage := .queued, msg := m, needed := s.now - ago, waits := [], readyAt := s.now - ago + 25
        features := s.fieldFeatures c.tmpl m } ∧
      (∀ k, k ≠ key → tfind k t.cut.reqs = tfind k s.cut.reqs) ∧ t.cut.lines = s.cut.lines ∧ t.cut.miss = s.cut.miss ∧
      s.regsBut t [R.CUT_QUEUE_OCC, R.CUT_PIN_OCC] ∧ s.same t [.cut, .teu, .regs] ∧ s.sends t []) ∧
    (∀ (tb e base n ln : Nat) (l : CacheLine), s.templateKeys c.tmpl m = [(tb, e, base, n)] → s.entityOk tb e = true →
      s.lineOf tb e = some (ln, l) → s.joinable tb e = none → l.poison = 0 →
      Completes (.cacheLookup id m ago []) s fun t =>
        t.teu.queue = s.queueIn s.teu.queue key (s.now - ago + 25) c.port ∧
        tfind key t.cut.reqs = some { c with
          stage := .queued, msg := m, needed := s.now - ago, waits := [], readyAt := s.now - ago + 25
          features := rowFeatures (s.fieldFeatures c.tmpl m) l.data base n false } ∧
        tfind ln t.cut.lines = some { l with used := s.cut.useCtr + 1 } ∧ t.cut.miss = s.cut.miss ∧
        t.rd (R.CUT_COUNT 0) = BitVec.ofNat 64 (((s.rd (R.CUT_COUNT 0)).toNat + 1) % 2 ^ 48) ∧
        t.rd (R.CUT_COUNT 1) = BitVec.ofNat 64 (((s.rd (R.CUT_COUNT 1)).toNat + 1) % 2 ^ 48) ∧
        s.regsBut t [R.CUT_QUEUE_OCC, R.CUT_PIN_OCC, R.CUT_COUNT 0, R.CUT_COUNT 1] ∧
        s.same t [.cut, .teu, .regs] ∧ s.sends t []) ∧
    (∀ (tb e base n ln : Nat) (l : CacheLine) (h : Fin 4), s.templateKeys c.tmpl m = [(tb, e, base, n)] →
      s.entityOk tb e = true → s.lineOf tb e = some (ln, l) → s.joinable tb e = none → l.poison ||| h.val ≠ 0 →
      Completes (.cacheLookup id m ago [(0, h)]) s fun t =>
        (∃ r, tfind key t.cut.reqs = some r ∧ r.features = rowFeatures (s.fieldFeatures c.tmpl m) l.data base n true) ∧
        tfind ln t.cut.lines = (if l.pins = 0 then none
          else some { l with used := s.cut.useCtr + 1, poison := l.poison ||| h.val }) ∧
        t.rd (R.SEC_COUNT 8) = BitVec.ofNat 64 (((s.rd (R.SEC_COUNT 8)).toNat + 1) % 2 ^ 48) ∧
        t.gf F.SEC_EVENTS_FCACHE_UNCORR = 1 ∧ s.same t [.cut, .teu, .regs] ∧ s.sends t []) ∧
    (∀ (tb e base n k : Nat), s.templateKeys c.tmpl m = [(tb, e, base, n)] → s.entityOk tb e = true →
      s.lineOf tb e = none → s.joinable tb e = none → s.freeSlot = some k →
      (s.cut.reqs.filter fun x => x.2.stage == .assembly).length < 4096 → Completes (.cacheLookup id m ago []) s fun t =>
        tfind key t.cut.reqs = some { c with
          stage := .assembly, msg := m, needed := s.now - ago, missed := true, waits := [k]
          features := s.fieldFeatures c.tmpl m } ∧
        tfind k t.cut.miss = some {
          table := tb, entity := e, issued := s.now, reqs := [key], upds := []
          limit := s.now + 32 * max 75 (s.gf F.CUT_MISS_TIMEOUT_TICKS) } ∧
        (∀ j, j ≠ k → tfind j t.cut.miss = tfind j s.cut.miss) ∧ t.cut.lines = s.cut.lines ∧
        t.teu = s.teu ∧ s.same t [.cut, .regs, .rig, .recov])

/-- The fetch of a missed row of the module's own memory (R168): it fills the line of R165 unless an invalidation made it
stale, frees its slot, and gives its one waiting request the row's features; an error, or none within MISS_TIMEOUT, gives
the request poison, is counted and sets FETCH_POISON. -/
def Obligations.MissFetch : Prop :=
  ∀ (slot : BitVec 12) (m : MissSlot) (key : Nat) (c : ReqCtx) (s : State), tfind slot.toNat s.cut.miss = some m →
    m.reqs = [key] → m.upds = [] → tfind key s.cut.reqs = some c → c.waits = [slot.toNat] →
    (s.modelBuf c.slot c.buf).neural = false → s.teu.queue.length ≤ 1024 → s.cut.walkTables = 0 → s.hly.upds = [] →
    (∀ ext off, (s.rig.ended.find? fun e => e.issuer == .missEngine slot.toNat) = none →
      placeOf (gOff ((s.rowAddr m.table m.entity + 2 ^ 63) % 2 ^ 56)) = .hbm off →
      s.isOwn (gModule ((s.rowAddr m.table m.entity + 2 ^ 63) % 2 ^ 56)) = true →
      (s.rowAddr m.table m.entity + 2 ^ 63).testBit 63 = true → s.hbmPoisonBits off 128 = 0 →
      Completes (.missFetchComplete slot ext) s fun t =>
        tfind slot.toNat t.cut.miss = none ∧
        t.teu.queue = s.queueIn s.teu.queue key (max (c.needed + 24) (s.now + 4) + 1) c.port ∧
        tfind key t.cut.reqs = some { c with
          stage := .queued, waits := [], arrived := s.now, readyAt := max (c.needed + 24) (s.now + 4) + 1
          features := s.takeRow m (s.hbmRead off 128) false c } ∧
        (m.stale = true → t.cut.lines = s.cut.lines) ∧
        (m.stale = false → ∀ k, s.victim (cacheSet m.table m.entity) = some k →
          tfind k t.cut.lines =
            some { table := m.table, entity := m.entity, data := s.hbmRead off 128, used := s.cut.useCtr + 1 }) ∧
        s.same t [.cut, .teu, .regs, .hold] ∧ s.sends t []) ∧
    (s.grid.idle = true → Completes (.missTimeout slot) s fun t =>
        let u := s.advanceTo m.limit
        t.now = max s.now m.limit ∧ tfind slot.toNat t.cut.miss = none ∧ t.gf F.CUT_EVENTS_FETCH_POISON = 1 ∧
        t.rd (R.CUT_COUNT 6) = BitVec.ofNat 64 (((u.rd (R.CUT_COUNT 6)).toNat + 1) % 2 ^ 48) ∧
        tfind key t.cut.reqs = some { c with
          stage := .queued, waits := [], arrived := t.now, readyAt := max (c.needed + 24) (t.now + 4) + 1
          features := u.takeRow m [] true c } ∧
        t.cut.lines = u.cut.lines ∧ u.same t [.cut, .teu, .regs] ∧ u.sends t [])

/-- Invalidation (R169): TABLE_INVALIDATE starts the walk of its tables at set 0, whose fetches pending at the end of its
CK_MGMT cycle become stale; a write of no bit does nothing; once the walk has passed the last set, no line of its tables
that the walk met is left but the pinned ones, INVAL_BUSY clears and INVAL_DONE sets. -/
def Obligations.TableInvalidation : Prop :=
  (∀ (mask : BitVec 16) (s : State), mask ≠ 0 → Completes (.tableInvalidate mask) s fun t =>
    t.gf F.CUT_STATUS_INVAL_BUSY = 1 ∧ t.cut.walkTables = s.cut.walkTables ||| mask.toNat ∧ t.cut.walkNext = 0 ∧
    t.cut.walkFrom = s.now / 8 * 8 + 8 ∧
    (s.cut.walkTables = 0 ∨ s.now < s.cut.walkFrom →
      t.cut.miss = s.cut.miss ∧ t.cut.walkMark = s.cut.walkMark ||| mask.toNat) ∧
    (s.cut.walkTables ≠ 0 → s.cut.walkFrom ≤ s.now →
      t.cut.miss = markStale s.cut.walkMark s.cut.miss ∧ t.cut.walkMark = mask.toNat) ∧
    s.regsBut t [R.CUT_STATUS] ∧ s.same t [.cut, .regs] ∧ s.sends t []) ∧
  (∀ s : State, Completes (.tableInvalidate 0) s fun t => s.same t [] ∧ s.sends t []) ∧
  (∀ s : State, s.cut.walkTables ≠ 0 → s.grid.idle = true → Completes .invalidationWalkDone s fun t =>
    let u := s.advanceTo (s.cut.walkFrom + 32768)
    t.cut.walkTables = 0 ∧ t.gf F.CUT_STATUS_INVAL_BUSY = 0 ∧ t.gf F.CUT_EVENTS_INVAL_DONE = 1 ∧
    t.now = max s.now (s.cut.walkFrom + 32768) ∧
    (∀ x ∈ s.cut.lines, x ∈ t.cut.lines ↔
      ¬ (s.cut.walkNext ≤ x.1 / 16 ∧ x.1 / 16 < 32768 ∧ s.cut.walkTables.testBit x.2.table = true ∧ x.2.pins = 0)) ∧
    t.cut.reqs = s.cut.reqs ∧ t.cut.miss = markStale s.cut.walkMark s.cut.miss ∧
    u.regsBut t [R.CUT_STATUS, R.CUT_EVENTS, R.CUT_EVENTS_REOCC] ∧ u.same t [.cut, .regs] ∧ u.sends t [])

/-- Write-backs (R170): an acknowledged one is counted and its line unpinned; an error keeps the line pinned and sets
WRITEBACK_ERR; 1,024 CK_TICK cycles later it is issued again, and a row in the module's own HBM then holds the line. -/
def Obligations.RowWriteBack : Prop :=
  ∀ (table : Fin 16) (entity : W32) (ln : Nat) (l : CacheLine) (s : State),
    s.lineOf table entity.toNat = some (ln, l) →
    (s.rig.ended.find? fun e => e.issuer == .updateEngine 0 ln) = none → 0 < l.wb →
    (s.hly.upds = [] → Completes (.writebackAck table entity true) s fun t =>
      tfind ln t.cut.lines = some { l with wb := l.wb - 1, pins := l.pins - 1, wbFailed := none } ∧
      (∀ k, k ≠ ln → tfind k t.cut.lines = tfind k s.cut.lines) ∧
      t.rd (R.CUT_COUNT 21) = BitVec.ofNat 64 (((s.rd (R.CUT_COUNT 21)).toNat + 1) % 2 ^ 48) ∧
      s.regsBut t [R.CUT_COUNT 21, R.CUT_QUEUE_OCC, R.CUT_PIN_OCC] ∧ s.same t [.cut, .regs] ∧ s.sends t []) ∧
    (Completes (.writebackAck table entity false) s fun t =>
      tfind ln t.cut.lines = some { l with wbFailed := some s.now } ∧ t.gf F.CUT_EVENTS_WRITEBACK_ERR = 1 ∧
      (∀ k, k ≠ ln → tfind k t.cut.lines = tfind k s.cut.lines) ∧
      s.regsBut t [R.CUT_EVENTS, R.CUT_EVENTS_REOCC] ∧ s.same t [.cut, .regs] ∧ s.sends t []) ∧
    (∀ (c off : Nat), l.wbFailed = some c → s.grid.idle = true →
      (s.rowAddr table entity.toNat + 2 ^ 63).testBit 63 = true →
      s.isOwn (gModule ((s.rowAddr table entity.toNat + 2 ^ 63) % 2 ^ 56)) = true →
      placeOf (gOff ((s.rowAddr table entity.toNat + 2 ^ 63) % 2 ^ 56)) = .hbm off →
      Completes (.writebackRetry table entity) s fun t =>
        t.now = max s.now (c + 32 * 1024) ∧ tfind ln t.cut.lines = some { l with wbFailed := none } ∧
        (∀ i, i < l.data.length → t.hbmByte (off + i) = l.data.getD i 0) ∧
        (∀ a, ¬ (off ≤ a ∧ a < off + l.data.length) → t.hbmByte a = s.hbmByte a) ∧
        s.same t [.now, .ptp, .cut, .regs, .hbm, .hold] ∧ s.sends t [])

/-- The tree engine (R145 to R151): the sample at the head of the queue starts in the first cycle whose reservations are
free; when it has been reduced and linked, its outputs are those of R147 and R148 over the walks of R137 to R139, or the
quiet NaN in every place where poison was met, and the samples, trees and tests by default are counted. -/
def Obligations.TreeSample : Prop :=
  (∀ (key : Nat) (rest : List Nat) (c : ReqCtx) (s : State), s.teu.queue = key :: rest → rest.length ≤ 1023 →
    tfind key s.cut.reqs = some c → s.mayStart (s.modelBuf c.slot c.buf) (max s.now c.readyAt) = true →
    Completes .sampleStart s fun t =>
      let u := s.advanceTo (max s.now c.readyAt)
      t.now = max s.now c.readyAt ∧ t.teu.queue = rest ∧ t.teu.lastStart = some t.now ∧
      tfind key t.cut.reqs = some { c with stage := .running, startAt := t.now } ∧
      (∀ k, k ≠ key → tfind k t.cut.reqs = tfind k u.cut.reqs) ∧
      u.regsBut t [R.TEU_COUNT 5, R.TEU_COUNT 6] ∧ u.same t [.teu, .cut, .regs] ∧ u.sends t []) ∧
  (∀ (id : W64) (key : Nat) (c : ReqCtx) (s : State), s.reqOf id.toNat = some (key, c) → c.stage = .running →
    (∀ f, c.checks ≠ .dropped f) → Completes (.sampleComplete id [] 0) s fun t =>
      let b := s.modelBuf c.slot c.buf
      let u := s.advanceTo (lastExit b c.startAt + 12)
      let ws := (List.range b.trees).map fun j => u.treeWalk b c.features [] j
      let poison := ws.any (·.poison)
      let outs := if poison then List.replicate b.nOut qnan else linkOut b.link ((List.range b.nOut).map (reduceOut b ws))
      (∃ r, tfind key t.cut.reqs = some r ∧ r.stage = .ready ∧ r.outputs = outs ∧ r.poisoned = poison ∧
        r.replyAt = lastExit b c.startAt + 26) ∧
      t.rd (R.TEU_COUNT 0) = BitVec.ofNat 64 (((u.rd (R.TEU_COUNT 0)).toNat + 1) % 2 ^ 48) ∧
      t.rd (R.TEU_COUNT 2) = BitVec.ofNat 64 (((u.rd (R.TEU_COUNT 2)).toNat + b.trees) % 2 ^ 48) ∧
      t.rd (R.SLOT_SAMPLES c.slot) = BitVec.ofNat 64 (((u.rd (R.SLOT_SAMPLES c.slot)).toNat + 1) % 2 ^ 48) ∧
      (poison = true → t.gf F.TEU_EVENTS_POISONED = 1) ∧ u.same t [.cut, .regs] ∧ u.sends t [])

/-- NODE_SCRUB (R160): the scrubber moves to the next node of the store; a corrected error is counted; an uncorrectable
one in a node in use makes its slot FAULTED and not LOADED, and a free node is cleared. -/
def Obligations.NodeScrub : Prop :=
  ∀ s : State,
    (Completes (.nodeScrub 0) s fun t =>
      t.teu = { s.teu with scrubNext := (s.teu.scrubNext + 1) % 1048576 } ∧ s.same t [.teu] ∧ s.sends t []) ∧
    (Completes (.nodeScrub 1) s fun t =>
      t.teu = { s.teu with scrubNext := (s.teu.scrubNext + 1) % 1048576 } ∧ t.gf F.TEU_EVENTS_NODE_CORR = 1 ∧
      t.rd (R.TEU_COUNT 11) = BitVec.ofNat 64 (((s.rd (R.TEU_COUNT 11)).toNat + 1) % 2 ^ 48) ∧
      s.regsBut t [R.TEU_COUNT 11, R.TEU_EVENTS, R.TEU_EVENTS_REOCC] ∧ s.same t [.teu, .regs] ∧ s.sends t []) ∧
    ((s.node s.teu.scrubNext).inUse = true → (s.node s.teu.scrubNext).slot < 16 →
      Completes (.nodeScrub 2) s fun t =>
        let m := (s.node s.teu.scrubNext).slot
        t.gf (F.SLOT_STATUS_FAULTED m) = 1 ∧ t.gf (F.SLOT_STATUS_LOADED m) = 0 ∧ t.gf (F.SLOT_STATUS_PASSES m) = 0 ∧
        t.gf F.TEU_EVENTS_NODE_UNCORR = 1 ∧
        s.regsBut t [R.SLOT_STATUS m, R.TEU_EVENTS, R.TEU_EVENTS_REOCC] ∧ s.same t [.teu, .regs] ∧ s.sends t []) ∧
    ((s.node s.teu.scrubNext).inUse = false → Completes (.nodeScrub 2) s fun t =>
      t.node s.teu.scrubNext = {} ∧ (∀ g, g ≠ s.teu.scrubNext → t.node g = s.node g) ∧
      s.same t [.teu] ∧ s.sends t [])

/-- A reply (R175, R176, R178 to R180): when the arbiter takes it, its PAD_LEN and LATENCY_CYC are fixed as R174 and R175
give and it takes its port; closing with its request's checks passed in time, its frame leaves with a good FCS, its
ledger entry holds the answer, and its context is gone; a request that was dropped makes it VOID: the FCS is stomped and
the entry freed. -/
def Obligations.ReplyTakenAndClosed : Prop :=
  (∀ (id : W64) (key f : Nat) (c : ReqCtx) (g : TxFrame) (s : State), s.reqOf id.toNat = some (key, c) →
    c.stage = .ready → c.preemptable = false → s.launchFrom c = some f → s.candFrom c.port c.car.prio f = f →
    s.linkUp c.port = true → (s.ethPort c.port).inProg = none → (s.ethPort c.port).susp = none →
    (s.rd (R.ETH_PREEMPT_CTRL c.port)).toNat = (s.ethPort c.port).preemptEff → s.choice c.port = some g →
    g.kind = .reply key → (s.ethPort c.port).waiting = [] → s.readyReplies c.port = [(key, c, f)] →
    tfind key s.cut.reqs = some c → f ≤ s.now →
    Completes (.replyLaunch id) s fun t =>
      (∃ r, tfind key t.cut.reqs = some r ∧ r.stage = .launched ∧ r.launchAt = s.now ∧
        r.padLen = s.replyPad c s.now ∧ r.latency = min 0xFFFF (s.now - c.needed)) ∧
      (∃ h, (t.ethPort c.port).inProg = some h ∧ h.kind = .reply key ∧ h.startAt = s.now) ∧
      t.hly = s.hly ∧ t.teu = s.teu ∧ s.same t [.cut, .eth, .regs] ∧ s.sends t []) ∧
  (∀ (id : W64) (key f : Nat) (c : ReqCtx) (s : State), s.reqOf id.toNat = some (key, c) → c.stage = .launched →
    c.checks = .passed f → c.ring = none → f ≤ s.trailerDue c → s.cut.reqs = [(key, c)] →
    (s.ethPort c.port).waiting = [] → s.grid.idle = true → Completes (.replyClose id) s fun t =>
      let u := s.advanceTo (s.replyLast c c.padLen)
      let st := if c.shed then 1 else if c.poisoned then 3 else 0
      let fr := s.replyFrame c st c.padLen ++ List.replicate (60 - (s.replyFrame c st c.padLen).length) 0
      t.now = max s.now (s.replyLast c c.padLen) ∧ u.sends t [.frame c.port fr (crc32 fr)] ∧
      tfind key t.cut.reqs = none ∧ (t.ethPort c.port).inProg = none ∧
      (∀ e, s.entry c.id = some e → ∃ e', t.entry c.id = some e' ∧ e'.isOpen = false ∧
        e'.answer = { kind := hkReply, body := replyBody c.outputs 0 st (s.replyPass c) 0 c.epoch }) ∧
      u.same t [.cut, .eth, .hly, .regs]) ∧
  (∀ (id : W64) (key f : Nat) (c : ReqCtx) (s : State), s.reqOf id.toNat = some (key, c) → c.stage = .launched →
    c.checks = .dropped f → c.ring = none → s.cut.reqs = [(key, c)] → (s.ethPort c.port).waiting = [] → s.grid.idle = true →
    Completes (.replyClose id) s fun t =>
      let pad := (s.replyEnd c false).2
      let u := s.advanceTo (s.replyLast c pad)
      let fr := s.replyFrame c 2 pad ++ List.replicate (60 - (s.replyFrame c 2 pad).length) 0
      u.sends t [.frame c.port fr (0xFFFFFFFF - crc32 fr)] ∧ t.entry c.id = none ∧ tfind key t.cut.reqs = none ∧
      (t.ethPort c.port).inProg = none ∧ u.same t [.cut, .eth, .hly, .regs])

/-- Grid offload (R186): the head of the bridge ingress queue is sent at an input slot once it has entered; its outputs come back to the
reply builder, 14 cycles before the reply is ready, as quiet NaNs where they carry poison. -/
def Obligations.GridOffload : Prop :=
  (∀ (die : Fin 4) (late : Bool) (key : Nat) (rest : List Nat) (c : ReqCtx) (s : State), s.cut.bridgeQ = key :: rest →
    rest.length ≤ 1023 → tfind key s.cut.reqs = some c → Completes (.offloadInputSlot die late) s fun t =>
      let u := s.advanceTo c.readyAt
      t.cut.bridgeQ = rest ∧ t.now = max s.now c.readyAt ∧
      tfind key t.cut.reqs = some { c with stage := .offload, startAt := t.now, missedSlot := late } ∧
      (∀ k, k ≠ key → tfind k t.cut.reqs = tfind k u.cut.reqs) ∧
      u.regsBut t [R.CUT_QUEUE_OCC, R.CUT_PIN_OCC] ∧ u.same t [.cut, .regs] ∧ u.sends t [.offload die key]) ∧
  (∀ (id : W64) (outs : List W32) (poison : Bool) (becalms key : Nat) (c : ReqCtx) (s : State),
    s.reqOf id.toNat = some (key, c) → c.stage = .offload → (∀ f, c.checks ≠ .dropped f) →
    Completes (.offloadOutput id outs poison becalms) s fun t =>
      let n := (s.modelBuf c.slot c.buf).nOut
      (∃ r, tfind key t.cut.reqs = some r ∧ r.stage = .ready ∧ r.replyAt = s.now + 14 ∧ r.poisoned = poison ∧
        r.becalms = becalms ∧ r.outputs = if poison then List.replicate n qnan else outs.take n) ∧
      (∀ k, k ≠ key → tfind k t.cut.reqs = tfind k s.cut.reqs) ∧ s.same t [.cut] ∧ s.sends t [])

/-! ### Operations, models, plans, mailboxes -/

/-- CONTROL_VERIFY (R130): a CONTROL that fails a check is counted, sets its event, and its ledger entry goes; one that
passes becomes its key's LAST_ID and starts: a MODEL_LOAD joins the loads, an operation of the dispatcher goes to it. -/
def Obligations.ControlVerify : Prop :=
  ∀ (m : CtlMsg) (rest : List CtlMsg) (s : State), s.hly.ctlQueue = m :: rest → m.isEcho = false →
    s.boot.failing = false →
    Completes .controlVerify s fun t =>
      t.hly.ctlQueue = rest ∧
      match (s.ctlCheck m).1 with
      | some i =>
        t.entry m.id = none ∧ (∀ k, k ≠ m.id → t.entry k = s.entry k) ∧ (i = 17 ∨ i = 18) ∧
        t.rd (R.HLY_COUNT i) = BitVec.ofNat 64 (((s.rd (R.HLY_COUNT i)).toNat + 1) % 2 ^ 48) ∧
        t.gf (if i = 17 then F.HLY_EVENTS_CTRL_AUTH_FAIL else F.HLY_EVENTS_CTRL_REPLAY) = 1 ∧
        s.same t [.hly, .regs] ∧ s.sends t []
      | none =>
        t.rd (R.HLY_CTRL_LAST_ID (beAt m.msg 34 1 % 8)) = BitVec.ofNat 64 m.id ∧
        t.rd (R.HLY_COUNT 16) = BitVec.ofNat 64 (((s.rd (R.HLY_COUNT 16)).toNat + 1) % 2 ^ 48) ∧
        (beAt m.msg 32 2 = opModelLoad →
          t.teu.loads = s.teu.loads ++ [{ ctl := m }] ∧ s.same t [.hly, .teu, .regs] ∧ s.sends t []) ∧
        (3 ≤ beAt m.msg 32 2 → beAt m.msg 32 2 ≤ 5 →
          t.job.inbox = s.job.inbox ++
            [{ op := beAt m.msg 32 2, operands := m.msg.drop 44, bodyLen := bodyLenOf m.msg, ctl := some m }] ∧
          s.same t [.hly, .job, .regs] ∧ s.sends t [])

/-- MODEL_LOAD (R153 to R156, Table 5.11) of an image in host memory: an undeclared slot, a wrong hash and an image that
fails a check are refused with their OP_STATUS, LOAD_REFUSED and a count; a good one waits for its switch with LOADING
set. -/
def Obligations.ModelLoad : Prop :=
  ∀ (o : LoadOp) (rest : List LoadOp) (ext : Option (List Byte)) (s : State), s.teu.loads = o :: rest →
    o.checked = false → bodyLenOf o.ctl.msg = 172 → beAt o.ctl.msg 44 1 < 16 → beAt o.ctl.msg 45 1 < 4 →
    beAt o.ctl.msg 46 2 = 0 → (beAt o.ctl.msg 48 8).testBit 63 = false →
    let m := beAt o.ctl.msg 44 1
    let refused (st : Nat) (t : State) : Prop :=
      t.teu = { s.teu with loads := rest } ∧ t.gf F.TEU_EVENTS_LOAD_REFUSED = 1 ∧
      t.rd (R.TEU_COUNT 10) = BitVec.ofNat 64 (((s.rd (R.TEU_COUNT 10)).toNat + 1) % 2 ^ 48) ∧
      s.acked t o.ctl st (loadResult m {} (s.rd (R.SLOT_VERSION m)).toNat) ∧ s.same t [.teu, .regs, .eth, .hly] ∧
      s.sends t []
    (s.slotDeclared m = false → Completes (.modelLoad ext) s (refused 2)) ∧
    (s.slotDeclared m = true → beAt o.ctl.msg 56 4 ≤ 16777472 →
      (ext = none → Completes (.modelLoad ext) s (refused 3)) ∧
      (∀ l, ext = some l → s.grid.idle = true → Completes (.modelLoad ext) s fun t =>
        let im := slice l 0 (beAt o.ctl.msg 56 4)
        let cold := (beAt o.ctl.msg 45 1).testBit 1 || s.flag (F.SLOT_STATUS_FAULTED m)
        let j := s.judgeImage m (1 - s.activeBuf m) ((beAt o.ctl.msg 45 1).testBit 0) cold im
        if Config.sha384 im ≠ slice o.ctl.msg 60 48 then refused 4 t
        else if j.1 ≠ 0 then refused j.1 t
        else
          t.gf (F.SLOT_STATUS_LOADING m) = 1 ∧
          (cold = false →
            t.teu = { s.teu with loads :=
              { o with slot := m, checked := true, cold := false, model := j.2.1, nodes := j.2.2 } :: rest } ∧
            t.gf (F.SLOT_STATUS_LOADED m) = s.gf (F.SLOT_STATUS_LOADED m) ∧
            s.regsBut t [R.SLOT_STATUS m] ∧ s.same t [.teu, .regs] ∧ s.sends t []) ∧
          (cold = true →
            t.gf (F.SLOT_STATUS_LOADED m) = 0 ∧ t.rd (R.SLOT_TREES m) = 0 ∧ t.rd (R.SLOT_NODES m) = 0 ∧
            t.now = s.now + 1 ∧ s.regsBut t [R.SLOT_STATUS m, R.SLOT_TREES m, R.SLOT_NODES m] ∧
            s.same t [.teu, .regs, .now, .ptp] ∧ s.sends t [])))

/-- MODEL_SWITCH and BUFFER_FREED (R157): once nothing is bound to the buffer the model needs, it holds the model and is
the slot's active one, SLOT_VERSION counts it and the CONTROL_ACK follows; the old buffer, left by its last request, is
freed with its nodes. Shown for tree models. -/
def Obligations.ModelSwitch : Prop :=
  (∀ (o : LoadOp) (rest : List LoadOp) (s : State), s.teu.loads = o :: rest → o.checked = true → o.cold = false →
    o.slot < 16 → o.model.neural = false → s.bufBound o.slot (1 - s.activeBuf o.slot) = false →
    s.run? (neuralKey o.slot (1 - s.activeBuf o.slot)) = none → (o.nodes.map Prod.fst).Nodup → s.grid.idle = true →
    Completes .modelSwitch s fun t =>
      let m := o.slot
      t.teu.loads = rest ∧ t.activeBuf m = 1 - s.activeBuf m ∧ t.modelBuf m (1 - s.activeBuf m) = o.model ∧
      (∀ e ∈ o.nodes, t.node e.1 = e.2) ∧ t.gf (F.SLOT_STATUS_LOADED m) = 1 ∧ t.gf (F.SLOT_STATUS_FAULTED m) = 0 ∧
      t.rd (R.SLOT_VERSION m) = BitVec.ofNat 64 (((s.rd (R.SLOT_VERSION m)).toNat + 1) % 2 ^ 32) ∧
      t.rd (R.TEU_COUNT 9) = BitVec.ofNat 64 (((s.rd (R.TEU_COUNT 9)).toNat + 1) % 2 ^ 48) ∧
      ((s.modelBuf m (s.activeBuf m)).held = true → (t.modelBuf m (s.activeBuf m)).leaving = true) ∧
      t.now = s.now + 1 ∧ s.acked t o.ctl 0 (loadResult m o.model (t.rd (R.SLOT_VERSION m)).toNat) ∧
      s.same t [.teu, .regs, .eth, .hly, .now, .ptp] ∧ s.sends t []) ∧
  (∀ (m : Fin 16) (b : Fin 2) (s : State), (s.modelBuf m b).leaving = true → s.bufBound m b = false →
    s.boot.failing = false → s.run? (neuralKey m b) = none → Completes (.bufferFreed m b) s fun t =>
      t.modelBuf m b = {} ∧ (∀ k, k ≠ 2 * m.val + b.val → tget (fun _ => {}) t.teu.bufs k = tget (fun _ => {}) s.teu.bufs k) ∧
      (∀ e, e ∈ t.teu.nodes ↔ e ∈ s.teu.nodes ∧ ¬ (e.2.slot = m.val ∧ e.2.buf = b.val)) ∧
      s.same t [.teu, .regs] ∧ s.sends t [])

/-- PLAN_LOAD (R370) of an image in host memory, at the front of the job queue with no dispatch in progress: a good image
takes its slot and is counted in its version and in PLANS_LOADED; a bad one leaves the plan store as it was and answers
the first status of Table 13.1 that applies. -/
def Obligations.PlanLoad : Prop :=
  ∀ (o : JobOp) (rest : List JobOp) (ext : Option (List Byte)) (s : State), s.job.cur = none → s.job.queue = o :: rest →
    o.op = opPlanLoad → o.fld 0 1 < 64 → (o.fld 4 8).testBit 63 = false → s.boot.failing = false →
    let im := ext.map fun l => slice l 0 (o.fld 12 4)
    let st := s.planStatus (o.fld 0 1) (o.fld 12 4) (slice o.operands 16 48) im
    Completes (.planLoad ext) s fun t =>
      t.job.queue = rest ∧ s.answered t o st ∧ s.same t [.job, .regs, .rig, .eth, .hly] ∧ s.sends t [] ∧
      if st ≠ 0 then t.job.plans = s.job.plans ∧ s.same t [.job, .regs, .eth, .hly]
      else
        (∃ l, im = some l ∧ tfind (o.fld 0 1) t.job.plans = some l) ∧
        (∀ k, k ≠ o.fld 0 1 → tfind k t.job.plans = tfind k s.job.plans) ∧
        t.rd (R.JOB_PLAN_VERSION (o.fld 0 1)) =
          BitVec.ofNat 64 (((s.rd (R.JOB_PLAN_VERSION (o.fld 0 1))).toNat + 1) % 2 ^ 32) ∧
        t.gf (F.JOB_PLAN_INFO_LOADED (o.fld 0 1)) = 1 ∧
        t.rd (R.JOB_COUNT 9) = BitVec.ofNat 64 (((s.rd (R.JOB_COUNT 9)).toNat + 1) % 2 ^ 48)

/-- JOB_DISPATCH (R363, R371): refused with BAD_OPERANDS, with QUEUE_FULL and its event, or with MAILBOX_BUSY and
MAILBOX_MISUSE, in that order; otherwise it is queued, its mailbox becomes NOT_READY with its tag, and it is counted. -/
def Obligations.JobDispatch : Prop :=
  ∀ (o : JobOp) (s : State), (s.job.inbox.find? fun o => o.op = opJobDispatch) = some o → s.boot.failing = false →
    (o.dispatchBad = true → Completes .jobDispatch s fun t =>
      t.job.inbox = s.job.inbox.erase o ∧ t.job.queue = s.job.queue ∧ s.answered t o jsBadOperands ∧
      s.same t [.job, .regs, .eth, .hly]) ∧
    (o.dispatchBad = false →
      (256 ≤ s.job.queue.length → Completes .jobDispatch s fun t =>
        t.job.queue = s.job.queue ∧ t.gf F.JOB_EVENTS_QUEUE_FULL = 1 ∧ s.answered t o jsQueueFull ∧
        s.same t [.job, .regs, .eth, .hly]) ∧
      (s.job.queue.length < 256 →
        ((s.mailbox (o.fld 2 2)).state ≠ 0 → Completes .jobDispatch s fun t =>
          t.job.queue = s.job.queue ∧ t.gf F.JOB_EVENTS_MAILBOX_MISUSE = 1 ∧ s.answered t o jsMailboxBusy ∧
          (∀ k, t.mailbox k = s.mailbox k) ∧ s.same t [.job, .regs, .eth, .hly]) ∧
        ((s.mailbox (o.fld 2 2)).state = 0 → Completes .jobDispatch s fun t =>
          t.job.queue = s.job.queue ++ [o] ∧ t.mailbox (o.fld 2 2) = { state := 1, tag := o.fld 4 4 } ∧
          (∀ k, k ≠ o.fld 2 2 → t.mailbox k = s.mailbox k) ∧ s.answered t o 0 ∧
          t.rd (R.JOB_COUNT 0) = BitVec.ofNat 64 (((s.rd (R.JOB_COUNT 0)).toNat + 1) % 2 ^ 48) ∧
          s.same t [.job, .regs, .eth, .hly] ∧ s.sends t [])))

/-- Mailboxes (R378, R379, R36): a read of word 0 returns it and sets REPEAT in READY; a release of a READY mailbox empties
it, of any other sets MAILBOX_MISUSE; a requester that R33 shuts out is refused with an error completion and DECODE_ERR;
the same two as operations answer with their four words or their status. -/
def Obligations.MailboxReadAndRelease : Prop :=
  (∀ (r : Src) (m : BitVec 12) (s : State), Completes (.mailboxRead (some r) m) s fun t =>
    s.sends t [.completion (srcCode r) stOk (leBytes 8 ((s.mailbox m.toNat).word 0))] ∧
    t.mailbox m.toNat = (if (s.mailbox m.toNat).state = 2 then { s.mailbox m.toNat with repeat_ := true }
      else s.mailbox m.toNat) ∧
    (∀ k, k ≠ m.toNat → t.mailbox k = s.mailbox k) ∧ s.same t [.job]) ∧
  (∀ (o : JobOp) (k : Nat) (m : BitVec 12) (s : State), (s.job.inbox.find? fun o => o.op = opMailboxRead) = some o →
    o.mailboxOf = some k → s.boot.failing = false → Completes (.mailboxRead none m) s fun t =>
      t.job.inbox = s.job.inbox.erase o ∧ s.answered t o 0 ∧ s.same t [.job, .regs, .eth, .hly]) ∧
  (∀ (r : Src) (m : BitVec 12) (s : State), s.boot.failing = false →
    (s.ctlRefused r R.JOB_MBX_RELEASE true = none →
      ((s.mailbox m.toNat).state = 2 → Completes (.mailboxRelease (some r) m) s fun t =>
        t.mailbox m.toNat = {} ∧ (∀ k, k ≠ m.toNat → t.mailbox k = s.mailbox k) ∧
        s.regsBut t (R.JOB_STATUS :: dieRegs) ∧ s.same t [.job, .regs] ∧ s.sends t []) ∧
      ((s.mailbox m.toNat).state ≠ 2 → Completes (.mailboxRelease (some r) m) s fun t =>
        t.gf F.JOB_EVENTS_MAILBOX_MISUSE = 1 ∧ t.job = s.job ∧
        s.regsBut t ([R.JOB_STATUS, R.JOB_EVENTS, R.JOB_EVENTS_REOCC] ++ dieRegs) ∧ s.same t [.regs] ∧ s.sends t [])) ∧
    (∀ c, s.ctlRefused r R.JOB_MBX_RELEASE true = some c → Completes (.mailboxRelease (some r) m) s fun t =>
      s.sends t [.completion (srcCode r) stDenied []] ∧ (t.rd R.DECODE_ERR).toNat.testBit c = true ∧
      s.same t [.regs])) ∧
  (∀ (o : JobOp) (k : Nat) (m : BitVec 12) (s : State), (s.job.inbox.find? fun o => o.op = opMailboxRelease) = some o →
    o.mailboxOf = some k → s.boot.failing = false → Completes (.mailboxRelease none m) s fun t =>
      t.job.inbox = s.job.inbox.erase o ∧
      s.answered t o (if (s.mailbox k).state = 2 then 0 else if (s.mailbox k).state = 1 then jsNotReady else jsEmpty) ∧
      ((s.mailbox k).state = 2 → t.mailbox k = {}) ∧ s.same t [.job, .regs, .eth, .hly])

/-- JOB_SUBMIT (R364, R365): GO by a requester whose bank is not BUSY hands its operation to the dispatcher; another
module's GO while the Rigging bank is claimed is refused; the owner's read of SUBMIT_STATUS after its operation ends the
claim, and so does a silence of 75,000 CK_TICK cycles. -/
def Obligations.JobSubmission : Prop :=
  (∀ s : State, (s.bank 0).busy = false → (s.bank 1).busy = false → s.boot.failing = false → ∀ (src : Src) (k : Nat),
    (src = .mgmt ∧ k = 0 ∨ src = .pcie ∧ k = 1) →
    let op := (tget (fun _ => (0 : W64)) (s.bank k).staged 0).toNat % 2 ^ 16
    (op = opJobDispatch ∨ op = opMailboxRead ∨ op = opMailboxRelease) → Completes (.submitGo src) s fun t =>
      t.job.inbox = s.job.inbox ++ [{ op := op, operands := (s.bank k).operands, bank := k }] ∧
      (t.bank k).busy = true ∧ (∀ j, j ≠ k → t.bank j = s.bank j) ∧ s.regsBut t (R.JOB_STATUS :: dieRegs) ∧
      s.same t [.job, .regs] ∧ s.sends t []) ∧
  (∀ (m o : ModNum) (s : State), (s.bank 2).claimed = some o.toNat → o ≠ m → s.boot.failing = false →
    s.ctlRefused (.rigging m) 0xF00480 true = none → Completes (.submitGo (.rigging m)) s fun t =>
      s.sends t [.completion (srcCode (.rigging m)) stDenied []] ∧ t.gf F.RIG_EVENTS_REMOTE_DENIED = 1 ∧ t.job = s.job ∧
      s.same t [.regs]) ∧
  (∀ (m : ModNum) (s : State), (s.bank 2).claimed = some m.toNat → (s.bank 2).busy = false → (s.bank 2).gone = true →
    Completes (.submitStatusRead (.rigging m)) s fun t =>
      (t.bank 2).claimed = none ∧ s.sends t [.completion (srcCode (.rigging m)) stOk (leBytes 4 (s.bank 2).statusWord)] ∧
      s.same t [.job]) ∧
  (∀ (o : Nat) (s : State), (s.bank 2).claimed = some o → (s.bank 2).busy = false → s.grid.idle = true →
    Completes .claimExpired s fun t =>
      (t.bank 2).claimed = none ∧ t.now = max s.now ((s.bank 2).touched + 75000 * 32) ∧ s.same t [.job, .now, .ptp] ∧
      s.sends t [])

/-- A TRAIN dispatch (R373): at RUN_BARRIER the lead takes the verdict of its sequences and goes on to the commit section,
begins the run again, or ends with SEQ_FAILED; at COMMIT_BARRIER the step is accepted and the next run begins, or the
dispatch ends when it was the last; a module that does not lead follows the STATE it sees. -/
def Obligations.TrainDispatch : Prop :=
  (∀ (d : Dispatch) (n : Option W64) (ext : List (Nat × List Byte)) (s : State), s.job.cur = some d → d.train = true →
    d.lead = true → d.phase = .runWait → s.grid.seqOps = [] → (seqsOf (planSeqs d.image)).any s.seqInUse = false →
    s.stepWord d.stepAddr n = some (d.modules * d.run) → d.accepted < d.steps → s.boot.failing = false →
    Completes (.runBarrier n ext) s fun t => ∃ v,
      (v = vdFailed → t.job.cur = none ∧ (t.mailbox d.mailbox).state = 2 ∧ (t.mailbox d.mailbox).outcome = 9) ∧
      (v = vdReplay → t.job.cur = some { d with
        verdict := 0, replays := d.replays + 1, rerun := d.rerun + 1, run := d.run + 1, phase := .shards, shard := 0
        chunk := 0 }) ∧
      (v ≠ vdFailed → v ≠ vdReplay → (planFlags d.image).testBit 3 = true →
        t.job.cur = some { d with verdict := v, phase := .commit, shard := 0, chunk := 0 }) ∧
      v ≤ 4 ∧ t.hly = s.hly ∧ t.cut = s.cut) ∧
  (∀ (d : Dispatch) (n : Option W64) (ext : List (Nat × List Byte)) (s : State), s.job.cur = some d → d.train = true →
    d.lead = true → d.phase = .commitWait → s.grid.seqOps = [] →
    s.stepWord (d.stepAddr + 8) n = some (d.modules * (d.accepted + 1)) → s.boot.failing = false →
    Completes (.commitBarrier n ext) s fun t =>
      (d.accepted + 1 < d.steps → t.job.cur = some { d with
        accepted := d.accepted + 1, rerun := 0, run := d.run + 1, phase := .shards, shard := 0, chunk := 0, verdict := 0 }) ∧
      (d.steps ≤ d.accepted + 1 → t.job.cur = none ∧ (t.mailbox d.mailbox).state = 2 ∧
        (t.mailbox d.mailbox).outcome = 0 ∧ (t.mailbox d.mailbox).steps = d.accepted + 1)) ∧
  (∀ (d : Dispatch) (n : Option W64) (w : Nat) (s : State), s.job.cur = some d → d.train = true → d.lead = false →
    s.stepWord (d.stepAddr + 16) n = some w → w % 2 ^ 40 = d.run % 2 ^ 40 → d.phase = .runWait → d.accepted < d.steps →
    s.boot.failing = false → Completes (.stepStateSeen n) s fun t =>
      let v := bits w 40 4
      (v = vdFailed → t.job.cur = none ∧ (t.mailbox d.mailbox).state = 2 ∧ (t.mailbox d.mailbox).outcome = 9) ∧
      (accepts v = true → (planFlags d.image).testBit 3 = true →
        t.job.cur = some { d with verdict := v, phase := .commit, shard := 0, chunk := 0 }) ∧
      (v = vdReplay → w.testBit 44 = true → t.job.cur = some { d with
        verdict := 0, replays := d.replays + 1, rerun := d.rerun + 1, run := d.run + 1, phase := .shards, shard := 0
        chunk := 0 }) ∧
      (v = vdReplay → w.testBit 44 = false → t.job.cur = some { d with verdict := v, phase := .commitWait }))

/-! ### The grid -/

/-- NOP, END, LOOP, SETAC, FURL, UNFURL (R368, R205, R234, R237): the strand moves on by the instruction's words; END ends
it, LOOP runs the words after it COUNT times (a COUNT of 0 skips them: DESIGN CHOICE, assumption log 59), SETAC writes its counter before
the increments of its cycle, FURL keeps its banks from the next plan cycle on or faults when another owner has RESIDENT
rows, and UNFURL has them erased 32 plan cycles later. -/
def Obligations.GridIssue : Prop :=
  ∀ (die : Fin 4) (row : Fin 32) (col : Fin 48) (strand : Byte) (i : Issue) (s : State),
    (s.issues i die row col strand ocNop → Completes (.nop die row col strand) s fun t =>
      s.ranOnly t i (i.runWith (i.tileAfter id))) ∧
    (s.issues i die row col strand ocEnd → Completes (.endStrand die row col strand) s fun t =>
      s.ranOnly t i (i.runWith (i.tileAfter fun st => { st with ended := true }))) ∧
    (s.issues i die row col strand ocLoop → Completes (.loop die row col strand) s fun t =>
      let count := bindSelf i.run.bucket (i.ins.f 16 3) (i.ins.f 0 16)
      let len := i.ins.f 19 12
      (len = 0 → s.ranOnly t i (i.runWith (i.tileAfter id))) ∧
      (0 < len → 0 < count → s.ranOnly t i (i.runWith (i.tileAfter fun st =>
        { st with pc := i.st.pc + 1, loops := (i.st.pc + 1, i.st.pc + 1 + len, count) :: i.st.loops }))) ∧
      (0 < len → count = 0 → s.ranOnly t i (i.runWith (i.tileAfter fun _ => i.st.goto (i.st.pc + 1 + len))))) ∧
    (s.issues i die row col strand ocSetac → Completes (.setac die row col strand) s fun t =>
      let k := acKey i.site strand.toNat (i.ins.f 0 2)
      s.ran t i (i.runWith (i.tileAfter id)) ∧
      (∀ j, tget (fun _ => (0 : W32)) t.grid.acs j =
        if j = k then BitVec.ofNat 32 (i.ins.f 2 32 + tget (fun _ => 0) s.grid.acNow k)
        else tget (fun _ => 0) s.grid.acs j) ∧
      t.grid = { s.grid with runs := t.grid.runs, acs := t.grid.acs }) ∧
    (s.issues i die row col strand ocFurl → isM i.site = false →
      (s.holdsForeign i.site i.run.owner = true → Completes (.furl die row col strand) s fun t =>
        s.ranOnly t i { i.runWith (i.tileAfter id) with faults := i.run.faults ++ [(i.by_, fcOwner)] }) ∧
      (s.holdsForeign i.site i.run.owner = false → Completes (.furl die row col strand) s fun t => ∃ l,
        s.ranOnly t i (i.runWith { i.tileAfter id with furled := i.tile.furled ||| i.ins.f 0 16, furlFrom := l }) ∧
        ∀ b, tfind b l = if (i.ins.f 0 16).testBit b && !i.tile.furled.testBit b then some (i.p + 1)
          else tfind b i.tile.furlFrom)) ∧
    (s.issues i die row col strand ocUnfurl → isM i.site = false → Completes (.unfurl die row col strand) s fun t => ∃ l,
      s.ranOnly t i (i.runWith { i.tileAfter id with erase := l }) ∧
      ∀ b, tfind b l = if (i.ins.f 0 16).testBit b && i.tile.furled.testBit b && (tfind b i.tile.erase).isNone
        then some (i.p + 32) else tfind b i.tile.erase)

/-- AWAIT, HOLD_RELEASE, AWAIT_TIMEOUT, BECALM_END (R206 to R208, R210): an AWAIT is tested at the end of its cycle, and in
a neural plan it is ILLEGAL; a hold whose conditions are met lasts to the seventh cycle after the last of them; a hold
that lasts too long faults the plan with AWAIT_TIMEOUT; a becalm is over after its last frozen cycle, which every die
counts. -/
def Obligations.GridHold : Prop :=
  (∀ (die : Fin 4) (row : Fin 32) (col : Fin 48) (strand : Byte) (i : Issue) (s : State),
    s.issues i die row col strand ocAwait → Completes (.await die row col strand) s fun t =>
      (i.run.neural = false → s.ranOnly t i { i.runWith (i.tileAfter id) with
        awaits := i.run.awaits ++ [⟨i.p, i.site, strand.toNat, i.st.pc, acKey i.site strand.toNat (i.ins.f 0 2),
          i.ins.f 2 32, s.arith, none⟩] }) ∧
      (i.run.neural = true → s.ranOnly t i { i.runWith (i.tileAfter id) with
        faults := i.run.faults ++ [(i.by_, fcIllegal)] })) ∧
  (∀ (r : Run) (s : State), s.run? 0 = some r → s.held r = true → (∀ a ∈ r.awaits, a.met.isSome = true) →
    Completes .holdRelease s fun t => s.now ≤ t.now ∧ ∀ a ∈ r.awaits, ∀ m, a.met = some m → 2 * (m + 7) ≤ t.now) ∧
  (∀ (r : Run) (a : Await) (s : State), s.run? 0 = some r → r.awaits = [a] → a.met = none → a.issued ≠ s.arith →
    siteDie a.site < 4 → a.strand < 256 → s.gf (F.GRID_AWAIT_LIMIT_TICKS (siteDie a.site)) ≠ 0 →
    2 * (a.issued + 6) + 32 * s.gf (F.GRID_AWAIT_LIMIT_TICKS (siteDie a.site)) + 2 ≤ s.now → r.fault = none →
    r.faults = [] → r.neural = false → s.boot.failing = false → Completes .awaitTimeout s fun t =>
      let d := siteDie a.site
      t.run? 0 = some { r with faults := [], fault := some (r.cycle, fcAwait), awaits := [] } ∧
      t.gf (F.GRID_EVENTS_AWAIT_TIMEOUT d) = 1 ∧ t.gf (F.GRID_EVENTS_PLAN_FAULT d) = 1 ∧
      t.rd (R.GRID_COUNT d 9) = BitVec.ofNat 64 (((s.rd (R.GRID_COUNT d 9)).toNat + 1) % 2 ^ 48) ∧
      (s.rd (R.GRID_EVENTS d) = 0 → t.gf (F.GRID_FAULT_SITE_CAUSE d) = fcAwait ∧
        t.rd (R.GRID_FAULT_CYCLE d) = BitVec.ofNat 64 (r.cycle % 2 ^ 48)) ∧
      s.regsBut t ([R.GRID_EVENTS d, R.GRID_EVENTS_REOCC d, R.GRID_COUNT d 9, R.GRID_FAULT_SITE d, R.GRID_FAULT_PC d,
        R.GRID_FAULT_CYCLE d] ++ dieRegs) ∧
      t.grid = { s.grid with runs := t.grid.runs } ∧ s.same t [.grid, .regs] ∧ s.sends t []) ∧
  (∀ s : State, s.grid.freezes ≠ [] → s.grid.runs = [] → s.boot.failing = false → Completes .becalmEnd s fun t =>
    (∀ f ∈ s.grid.freezes, 2 * (f.2 + 1) ≤ t.now) ∧ s.now ≤ t.now ∧ t.becalmed = false ∧
    s.regsBut t (dieRegs ++ (List.range 4).map fun d => R.GRID_COUNT d 1) ∧
    s.same t [.now, .ptp, .grid, .regs] ∧ s.sends t [])

/-- SEND, VEC, MATMUL, RESCALE and the starts of the last two (R199 to R201, R250 to R252, R297, R298, R368): flit k of a
SEND leaves in plan cycle P + k and lands in P + 2 + d + k, where d counts its links and 14 for each bridge (on one die
the row and column distance), poisoned when its path code error is uncorrectable (R414); a VEC writes its row in P + 4; a MATMUL and a RESCALE are queued for the first cycle that
their unit is free, and a corrected error in a row that one reads when it starts is counted. -/
def Obligations.GridWork : Prop :=
  (∀ (die : Fin 4) (row : Fin 32) (col : Fin 48) (strand : Byte) (path : List (Byte × Bool)) (i : Issue) (s : State),
    s.issues i die row col strand ocSend → sendLegal i = true →
    let n := i.ins
    let dest := siteOf n.sendDie n.sendRow n.sendCol
    let route := sendRoute die row col n.sendDie n.sendRow n.sendCol (n.f 17 6) (n.f 23 6)
    (hopSites dest route).any (s.trespass i.run) = false → Completes (.send die row col strand 0 path) s fun t =>
      (∃ links hits, s.ranOnly t i { i.runWith (i.tileAfter id) with
        links := links
        events := i.run.events ++ (List.range (n.f 55 8 + 1)).map (fun k =>
          (i.p + k, .depart i.by_ (n.f 29 13 + (if isM i.site then k else 2 * k)) dest n.sendTarget
            (n.f 42 13 + (if isM dest then k else 2 * k)) (i.p + 2 + routeTime route + k)
            (path.any fun e => e.1.toNat = k && e.2))) ++
          (hits : List Nat).map fun u => (u, .breach i.by_ fcMesh) }
        (if path = [] then [] else [R.SEC_COUNT 0, R.SEC_COUNT 1, R.SEC_EVENTS, R.SEC_EVENTS_REOCC])) ∧
      (n.sendDie = die.val → routeTime route = (max row.val n.sendRow - min row.val n.sendRow) +
        (max col.val n.sendCol - min col.val n.sendCol))) ∧
  (∀ (die : Fin 4) (row : Fin 32) (col : Fin 48) (strand : Byte) (i : Issue) (s : State),
    s.issues i die row col strand ocVec → isM i.site = false → (∀ u ∈ s.usersOf (siteN die row col), u.2.2.erase = []) →
    i.tile.furledAt i.p = 0 → s.foreign i.site (i.ins.f 4 13) i.run.owner = false →
    s.foreign i.site (i.ins.f 17 13) i.run.owner = false → s.rowMark i.site (i.ins.f 4 13) = false →
    s.rowMark i.site (i.ins.f 17 13) = false → Completes (.vec die row col strand 0) s fun t => ∃ d,
      s.ranOnly t i { i.runWith (i.tileAfter id) with
        events := i.run.events ++ [(i.p, .read i.by_), (i.p + 4, .row i.by_ (i.ins.f 30 13) d (allNibbles i.site) false)] } ∧
      d.length = 32 ∧ ∀ c, c < 16 → leAt d (2 * c) 2 = vecCell (i.ins.f 0 4)
        (leAt (s.rowRead i.site (i.ins.f 4 13)) (2 * c) 2) (leAt (s.rowRead i.site (i.ins.f 17 13)) (2 * c) 2) % 2 ^ 16) ∧
  (∀ (die : Fin 4) (row : Fin 32) (col : Fin 48) (strand : Byte) (i : Issue) (s : State),
    (s.issues i die row col strand ocMatmul → isM i.site = false → strand.toNat < 4 →
      sheetsLegal i.tile i.ins strand.toNat = true → Completes (.matmul die row col strand) s fun t =>
        let q := strand.toNat
        let steps := (i.ins.shape i.run.bucket (i.run.variant = 1)).steps
        let first := i.p + 1 + i.ins.f 357 4
        let start := match tfind q i.tile.matPrev with
          | some (sp, n) => max first (sp + 16 * n)
          | none => first
        s.ranOnly t i (i.runWith { i.tileAfter (fun st => { st with free := start }) with
          mats := i.tile.mats ++ [{ q := q, w := i.ins.v, pc := i.st.pc, start := start, steps := steps }]
          matPrev := tins q (start, steps) i.tile.matPrev })) ∧
    (s.issues i die row col strand ocRescale → rescaleLegal i = true → Completes (.rescale die row col strand) s fun t =>
        let start := match i.tile.resPrev with
          | some q => max (i.p + 1) (q + 16)
          | none => i.p + 1
        s.ranOnly t i (i.runWith { i.tileAfter (fun st => { st with free := start }) with
          rescs := i.tile.rescs ++ [{ w := i.ins.v, pc := i.st.pc, strand := strand.toNat, start := start }]
          resPrev := some start }))) ∧
  (∀ (die : Fin 4) (row : Fin 32) (col : Fin 48) (key : Nat) (r : Run) (x : Tile) (a : BitVec 13) (s : State),
    s.usersOf (siteN die row col) = [(key, r, x)] → s.run? key = some r → s.runs r = true → s.boot.failing = false →
    let d := die.val
    let fixed (t : State) : Prop :=
      t.rd (R.GRID_COUNT d 5) = BitVec.ofNat 64 (((s.rd (R.GRID_COUNT d 5)).toNat + 1) % 2 ^ 48) ∧
      t.gf (F.GRID_EVENTS_CORR d) = 1 ∧ t.grid = s.grid ∧
      s.regsBut t ([R.GRID_COUNT d 5, R.GRID_EVENTS d, R.GRID_EVENTS_REOCC d] ++ dieRegs) ∧
      s.same t [.regs] ∧ s.sends t []
    (∀ (q : Fin 4) (m : MatRun), (x.mats.find? fun m => m.q = q.val && decide (r.cycle ≤ m.start)) = some m →
      m.start = r.cycle → Completes (.matmulStart die row col q [(true, a, 1)]) s fixed) ∧
    (∀ m : ResRun, (x.rescs.find? fun m => decide (r.cycle ≤ m.start)) = some m → m.start = r.cycle →
      Completes (.rescaleStart die row col [(true, a, 1)]) s fixed))

/-- FURL_COMPLETE and UNFURL_ERASE (R235, R237): with no side-port write outstanding at the tile, every bank whose FURL is
in force powers down and is counted; a bank that its UNFURL erases reads as zero in every cell, is usable and is
counted, and no other cell changes. -/
def Obligations.FurlAndUnfurlEnd : Prop :=
  (∀ (die : Fin 4) (row : Fin 32) (col : Fin 48) (key : Nat) (r : Run) (x : Tile) (s : State),
    s.usersOf (siteN die row col) = [(key, r, x)] → s.run? key = some r → r.tile? (siteN die row col) = some x →
    s.runs r = true → x.furled ≠ 0 → (∀ e ∈ x.furlFrom, e.2 ≤ r.cycle) → x.erase = [] → x.furled < 2 ^ 16 →
    (s.grid.side.any fun w => w.site = siteN die row col) = false → s.boot.failing = false →
    (x.furled &&& (0xFFFF ^^^ x.down)) ≠ 0 → Completes (.furlComplete die row col) s fun t =>
      let fresh := (List.range 16).filter fun b => x.furled.testBit b && !x.down.testBit b
      (∃ y, t.run? key = some { r with tiles := tins (siteN die row col) { x with down := y } r.tiles } ∧
        ∀ b, y.testBit b = (x.down.testBit b || x.furled.testBit b)) ∧
      t.rd (R.MEM_COUNT die.val 11) =
        BitVec.ofNat 64 (((s.rd (R.MEM_COUNT die.val 11)).toNat + fresh.length) % 2 ^ 48) ∧
      s.regsBut t (R.MEM_COUNT die.val 11 :: dieRegs) ∧ t.grid = { s.grid with runs := t.grid.runs } ∧
      s.same t [.grid, .regs] ∧ s.sends t []) ∧
  (∀ (die : Fin 4) (row : Fin 32) (col : Fin 48) (bank : Fin 16) (key : Nat) (r : Run) (x : Tile) (s : State),
    isM (siteN die row col) = false → s.usersOf (siteN die row col) = [(key, r, x)] → s.run? key = some r →
    r.tile? (siteN die row col) = some x → s.runs r = true → x.erase = [(bank.val, r.cycle)] → s.boot.failing = false →
    Completes (.unfurlErase die row col bank) s fun t =>
      let site := siteN die row col
      t.run? key = some { r with tiles := tins site { x with
        erase := [], furled := x.furled &&& (0xFFFF ^^^ 2 ^ bank.val)
        down := x.down &&& (0xFFFF ^^^ 2 ^ bank.val) } r.tiles } ∧
      (∀ (y c : Nat), y < 8192 → c < 16 →
        tget hbmDefault t.grid.sram (sramKey site y + 2 * c) =
          (if (y + c) % 16 = bank.val then 0 else tget hbmDefault s.grid.sram (sramKey site y + 2 * c)) ∧
        tget hbmDefault t.grid.sram (sramKey site y + 2 * c + 1) =
          (if (y + c) % 16 = bank.val then 0 else tget hbmDefault s.grid.sram (sramKey site y + 2 * c + 1))) ∧
      (∀ k, k / 2 ^ 19 ≠ site → tget hbmDefault t.grid.sram k = tget hbmDefault s.grid.sram k) ∧
      t.rd (R.MEM_COUNT die.val 12) = BitVec.ofNat 64 (((s.rd (R.MEM_COUNT die.val 12)).toNat + 1) % 2 ^ 48) ∧
      s.regsBut t (R.MEM_COUNT die.val 12 :: dieRegs) ∧
      t.grid = { s.grid with runs := t.grid.runs, sram := t.grid.sram } ∧ s.same t [.grid, .regs] ∧ s.sends t [])

/-- Tile SRAM and HBM from outside the schedule (R231, R232, R238, R246): zeroing clears every row of its sites that is not
RESIDENT; a release clears every RESIDENT row of its owner and takes it off the tables, or waits for that owner's
invocation with RELEASE_PENDING set; the scrubbers move on, count and mark what they meet. -/
def Obligations.ZeroingAndScrubbing : Prop :=
  let resRegs : List Nat := (List.range 4).map R.MEM_RES_STATUS
  (∀ s : State, (∀ e ∈ s.grid.zeroing, e.2 = 0) → s.grid.releases = [] → s.boot.failing = false →
    Completes .zeroingDone s fun t =>
      t.grid.zeroing = [] ∧
      (∀ k, tget hbmDefault t.grid.sram k =
        if (∃ e ∈ s.grid.zeroing, e.1 = k / 2 ^ 19) ∧ s.ownerOf (k / 2 ^ 19) (k % 2 ^ 19 / rowLen (k / 2 ^ 19)) = none
        then 0 else tget hbmDefault s.grid.sram k) ∧
      (∀ k, tget (fun _ => (0 : W32)) t.grid.acc k =
        if ∃ e ∈ s.grid.zeroing, e.1 = k / 16 / 2048 then 0 else tget (fun _ => 0) s.grid.acc k) ∧
      s.regsBut t (R.JOB_STATUS :: (resRegs ++ dieRegs)) ∧ t.grid.runs = s.grid.runs ∧
      t.grid.residency = s.grid.residency ∧ s.same t [.grid, .regs] ∧ s.sends t []) ∧
  (∀ (owner : W32) (s : State), s.boot.failing = false →
    (s.ownerRuns owner.toNat = false → Completes (.resRelease owner) s fun t =>
      (∀ k, tget hbmDefault t.grid.sram k =
        if s.ownerOf (k / 2 ^ 19) (k % 2 ^ 19 / rowLen (k / 2 ^ 19)) = some owner.toNat then 0
        else tget hbmDefault s.grid.sram k) ∧
      (∀ site row, t.ownerOf site row ≠ some owner.toNat) ∧ s.regsBut t (resRegs ++ dieRegs) ∧
      t.grid.runs = s.grid.runs ∧ t.grid.acc = s.grid.acc ∧ s.same t [.grid, .regs] ∧ s.sends t []) ∧
    (s.ownerRuns owner.toNat = true → Completes (.resRelease owner) s fun t =>
      t.grid = { s.grid with releases := s.grid.releases ++ [owner.toNat] } ∧
      (∀ d, d < 4 → t.gf (F.MEM_RES_STATUS_RELEASE_PENDING d) = 1) ∧ s.regsBut t (resRegs ++ dieRegs) ∧
      s.same t [.grid, .regs] ∧ s.sends t [])) ∧
  (∀ (die : Fin 4) (row : Fin 32) (col : Fin 48) (s : State), s.boot.failing = false →
    s.gf (F.MEM_SCRUB_CTRL_TILE_INTERVAL die.val) ≠ 0 →
    let site := siteN die row col
    let r := tget (fun _ => 0) s.grid.scrubRow site
    (Completes (.tileScrub die row col 0) s fun t =>
      tget (fun _ => 0) t.grid.scrubRow site = (r + 1) % 8192 ∧
      t.grid = { s.grid with scrubRow := t.grid.scrubRow } ∧ s.same t [.grid] ∧ s.sends t []) ∧
    (Completes (.tileScrub die row col 1) s fun t =>
      tget (fun _ => 0) t.grid.scrubRow site = (r + 1) % 8192 ∧ t.gf (F.MEM_EVENTS_SCRUB_CORR die.val) = 1 ∧
      t.rd (R.MEM_COUNT die.val 8) = BitVec.ofNat 64 (((s.rd (R.MEM_COUNT die.val 8)).toNat + 1) % 2 ^ 48) ∧
      s.regsBut t [R.MEM_COUNT die.val 8, R.MEM_EVENTS die.val, R.MEM_EVENTS_REOCC die.val] ∧
      t.grid = { s.grid with scrubRow := t.grid.scrubRow } ∧ s.same t [.grid, .regs] ∧ s.sends t []) ∧
    (s.grid.uncorr.contains (site * 4 + sramKind site, r) = false → Completes (.tileScrub die row col 3) s fun t =>
      t.rowMark site r = true ∧ t.gf (F.GRID_EVENTS_UNCORR die.val) = 1 ∧
      t.rd (R.GRID_COUNT die.val 7) = BitVec.ofNat 64 (((s.rd (R.GRID_COUNT die.val 7)).toNat + 1) % 2 ^ 48) ∧
      s.regsBut t [R.GRID_COUNT die.val 7, R.GRID_EVENTS die.val, R.GRID_EVENTS_REOCC die.val,
        R.GRID_SRAM_ERR die.val] ∧
      t.grid.sram = s.grid.sram ∧ t.grid.runs = s.grid.runs ∧ s.same t [.grid, .regs] ∧ s.sends t [])) ∧
  (∀ (stack : Fin 8) (ondie : Byte) (s : State),
    let d := stack.val / 2
    let u := tget (fun _ => 0) s.grid.patrol stack.val
    let off := stackOff stack.val (256 * u)
    s.gf (F.MEM_SCRUB_CTRL_HBM_INTERVAL d) ≠ 0 → u + 1 < stackSize / 256 →
    let next (t : State) : Prop :=
      tget (fun _ => 0) t.grid.patrol stack.val = u + 1 ∧ t.grid = { s.grid with patrol := t.grid.patrol } ∧
      t.rd (R.MEM_COUNT d 7) = BitVec.ofNat 64 (((s.rd (R.MEM_COUNT d 7)).toNat + ondie.toNat) % 2 ^ 48) ∧ s.sends t []
    (s.holdDirty off = true → ∀ errs, Completes (.hbmPatrol stack errs ondie) s fun t =>
      next t ∧ s.regsBut t [R.MEM_COUNT d 7] ∧ s.same t [.grid, .regs]) ∧
    (s.holdDirty off = false → Completes (.hbmPatrol stack #v[1, 0, 0, 0] ondie) s fun t =>
      next t ∧ t.rd (R.MEM_COUNT d 5) = BitVec.ofNat 64 (((s.rd (R.MEM_COUNT d 5)).toNat + 1) % 2 ^ 48) ∧
      t.gf (F.MEM_EVENTS_HBM_CORR d) = 1 ∧
      s.regsBut t [R.MEM_COUNT d 7, R.MEM_COUNT d 5, R.MEM_EVENTS d, R.MEM_EVENTS_REOCC d] ∧ s.same t [.grid, .regs]) ∧
    (s.holdDirty off = false → Completes (.hbmPatrol stack #v[2, 0, 0, 0] ondie) s fun t =>
      next t ∧ t.rd (R.MEM_COUNT d 6) = BitVec.ofNat 64 (((s.rd (R.MEM_COUNT d 6)).toNat + 1) % 2 ^ 48) ∧
      t.gf (F.MEM_EVENTS_HBM_UNCORR d) = 1 ∧ (∀ a, t.hbmByte a = s.hbmByte a) ∧
      (∀ k, tget noMark t.hbmPoison k = (decide (k = off / 64) || tget noMark s.hbmPoison k)) ∧
      s.regsBut t [R.MEM_COUNT d 7, R.MEM_COUNT d 6, R.MEM_EVENTS d, R.MEM_EVENTS_REOCC d, R.MEM_ERR_ADDR d] ∧
      s.same t [.grid, .regs, .hbm]))

/-- CSET, CENSUS_FLUSH_DONE and the course of an invocation (R231, R272, R302, R304, R372, R377): a CSET binds its tile
anew and flushes the records under the old binding, or faults with DMA_QUEUE_FULL when they do not fit; the end of a
flush counts on its CSET's counter; a dispatch that the decision refuses ends with its outcome in its mailbox, an empty
one ends well, and one that goes begins its run in the next CK_ARITH cycle with its record in every M-tile; the end of
the run starts the zeroing, and the dispatch ends with PLAN_FAULTED and its cause, or OK when nothing is left to run. -/
def Obligations.InvocationCourse : Prop :=
  (∀ (die : Fin 4) (row : Fin 32) (col : Fin 48) (strand : Byte) (i : Issue) (s : State),
    s.issues i die row col strand ocCset → i.run.neural = false → i.run.variant ≠ 3 →
    (i.ins.f 0 1 = 0 ∨ i.run.seqMask.testBit (i.ins.f 1 3) = true) →
    let recs := i.tile.census.filter fun e => e.2 ≠ {}
    let ac := acKey i.site strand.toNat (i.ins.f 40 2)
    let new := if i.ins.f 0 1 = 1 then some (i.ins.f 1 3, i.ins.f 4 24, i.ins.f 28 12) else none
    (i.tile.bind = none → Completes (.cset die row col strand) s fun t =>
      s.ran t i (i.runWith { i.tileAfter id with bind := new }) ∧
      t.grid = { s.grid with
        runs := t.grid.runs, flushes := tins s.grid.nextFlush ⟨0, some ac, false, 0⟩ s.grid.flushes
        nextFlush := s.grid.nextFlush + 1 }) ∧
    (∀ b, i.tile.bind = some b → recs.length ≤ s.dmaFree (triadM i.site) → Completes (.cset die row col strand) s fun t =>
      s.ran t i (i.runWith { i.tileAfter id with bind := new, census := [] }) ∧
      tfind s.grid.nextFlush t.grid.flushes = some ⟨b.1, some ac, false, recs.length⟩ ∧
      ∃ cs, t.grid.dma = s.grid.dma ++ cs ∧ cs.length = recs.length ∧
        ∀ c ∈ cs, c.site = triadM i.site ∧ c.kind = 16 ∧ c.flush = some s.grid.nextFlush) ∧
    (∀ b, i.tile.bind = some b → s.dmaFree (triadM i.site) < recs.length → Completes (.cset die row col strand) s fun t =>
      s.ranOnly t i { i.runWith (i.tileAfter id) with faults := i.run.faults ++ [(i.by_, fcDmaFull)] })) ∧
  (∀ (n ac : Nat) (f : Flush) (s : State), tfind n s.grid.flushes = some f → f.left = 0 → f.ac = some ac →
    s.boot.failing = false → Completes (.censusFlushDone n) s fun t =>
      tget (fun _ => (0 : W32)) t.grid.acs ac = tget (fun _ => 0) s.grid.acs ac + 1 ∧
      (∀ k, k ≠ ac → tget (fun _ => (0 : W32)) t.grid.acs k = tget (fun _ => 0) s.grid.acs k) ∧
      t.grid = { s.grid with flushes := tdel n s.grid.flushes, acs := t.grid.acs, acNow := t.grid.acNow } ∧
      s.regsBut t (R.JOB_STATUS :: dieRegs) ∧ s.same t [.grid, .regs] ∧ s.sends t []) ∧
  (∀ (d : Dispatch) (s : State), s.job.cur = some d → d.running = false → d.phase ≠ .runWait → d.phase ≠ .commitWait →
    s.boot.failing = false →
    let ended (outcome : Nat) (empty : Bool) (t : State) : Prop :=
      t.job.cur = none ∧ (t.mailbox d.mailbox).state = 2 ∧ (t.mailbox d.mailbox).tag = d.tag ∧
      (t.mailbox d.mailbox).outcome = outcome ∧ (t.mailbox d.mailbox).empty = empty ∧
      (∀ k, k ≠ d.mailbox → t.mailbox k = s.mailbox k) ∧ t.gf F.JOB_EVENTS_MAILBOX_READY = 1 ∧
      s.same t [.job, .regs] ∧ s.sends t []
    (∀ o, s.decision d = .refuse o → Completes .invocationDispatch s (ended o false)) ∧
    (s.decision d = .empty → Completes .invocationDispatch s fun t =>
      ended 0 true t ∧ t.rd (R.JOB_COUNT 2) = BitVec.ofNat 64 (((s.rd (R.JOB_COUNT 2)).toNat + 1) % 2 ^ 48)) ∧
    (s.decision d = .wait → Completes .invocationDispatch s fun t =>
      s.regsBut t (R.JOB_STATUS :: dieRegs) ∧ s.same t [.regs] ∧ s.sends t []) ∧
    (∀ v b shape parts chunked, s.decision d = .go v b shape parts chunked → Completes .invocationDispatch s fun t =>
      t.job.cur = some { d with running := true, bucket := b, invocations := d.invocations + 1 } ∧
      t.rd (R.JOB_COUNT 1) = BitVec.ofNat 64 (((s.rd (R.JOB_COUNT 1)).toNat + 1) % 2 ^ 48) ∧
      (∃ r, t.run? 0 = some r ∧ r.cycle = 0 ∧ r.from_ = s.arith + 1 ∧ r.isOver = false ∧ r.variant = v ∧
        r.last = bucketLast d.image b ∧ r.dims = shape.map (·.1) ∧ r.shard = d.shardFirst + d.shard ∧
        r.tiles = runTiles d.image v b ∧
        ∀ e ∈ r.tiles, isM e.1 = true → t.rowRead e.1 8190 = (invRecord d shape).take 64 ∧
          t.rowRead e.1 8191 = (invRecord d shape).drop 64) ∧
      (∀ k, k ≠ 0 → t.run? k = s.run? k) ∧ s.regsBut t ([R.JOB_STATUS, R.JOB_COUNT 1, R.JOB_COUNT 5] ++ dieRegs) ∧
      s.same t [.job, .grid, .regs] ∧ s.sends t [])) ∧
  (∀ (r : Run) (d : Dispatch) (s : State), s.run? 0 = some r → s.job.cur = some d → r.isOver = true → r.closed = false →
    r.roundFailed = false → (∀ e ∈ r.tiles, e.2.bind = none) → s.grid.dma = [] → s.grid.flushes = [] →
    s.grid.releases = [] → s.boot.failing = false →
    let ended (outcome cause : Nat) (t : State) : Prop :=
      t.run? 0 = none ∧ (∀ k, k ≠ 0 → t.run? k = s.run? k) ∧
      t.grid.zeroing = r.tiles.map (fun e => (e.1, e.2.furled)) ∧ t.job.cur = none ∧
      (t.mailbox d.mailbox).state = 2 ∧ (t.mailbox d.mailbox).outcome = outcome ∧
      (t.mailbox d.mailbox).cause = cause ∧ (t.mailbox d.mailbox).cycles = d.cycles + r.cycle + 1 ∧
      t.gf F.JOB_EVENTS_MAILBOX_READY = 1 ∧ s.same t [.job, .grid, .regs] ∧ s.sends t []
    (∀ f c, r.fault = some (f, c) → c ≠ 0 → Completes .invocationEnd s (ended ocmFaulted c)) ∧
    (r.fault = none → d.train = false → (∀ x p, cutShape d.image d.dims = some (x, p) → chunkCount p ≤ d.chunk + 1) →
      d.shardCount ≤ d.shard + 1 → Completes .invocationEnd s (ended ocmOk 0)))

/-! ### DMA, sequences -/

/-- A DMA instruction issues (R202, R337, R342 to R346, R349, Table 13.7): with its M-tile's queue full it faults with
DMA_QUEUE_FULL; otherwise its command joins the queue with the operands its words give and, alone in the queue, begins: a
COPY collects its units, a FENCE has nothing to wait for, an atomic on the module's own HBM updates the word and keeps
the old value, a POLL that matches is ready, and a DOORBELL and a REDUCE for another module send their packet. -/
def Obligations.DmaIssue : Prop :=
  ∀ (die : Fin 4) (row : Fin 32) (col : Fin 48) (strand : Byte) (i : Issue) (c : Instr) (kind : Nat) (s : State),
    s.issues i die row col strand ocDma → isM i.site = true → i.ins.dKind = kind →
    [Instr.dmaCopy die row col strand 0 [], .dmaReformat die row col strand, .dmaFence die row col strand,
      .dmaReduce die row col strand, .dmaPoll die row col strand, .dmaAtomicAdd die row col strand,
      .dmaAtomicUmax die row col strand, .dmaAtomicSmax die row col strand, .dmaAtomicCas die row col strand,
      .dmaDoorbell die row col strand][kind]? = some c →
    (s.dmaFree i.site = 0 → Completes c s fun t =>
      s.ranOnly t i { i.runWith (i.tileAfter id) with faults := i.run.faults ++ [(i.by_, fcDmaFull)] }) ∧
    (s.grid.dma = [] → s.rig.ended = [] → (s.dmaArg i.site (i.ins.dWord 1)).2 = false →
      (s.dmaArg i.site (i.ins.dWord 2)).2 = false →
      let src := dmaEnd i.site (s.dmaArg i.site (i.ins.dWord 1)).1
      let dst := dmaEnd i.site (s.dmaArg i.site (i.ins.dWord 2)).1
      let len := 64 * (i.ins.f 6 18 + 1)
      let begun (t : State) (P : DmaCmd → Prop) : Prop := ∃ d, t.grid.dma = [d] ∧ d.id = s.grid.nextDma ∧
        t.grid.nextDma = s.grid.nextDma + 1 ∧ d.site = i.site ∧ d.strand = strand.toNat ∧ d.kind = kind ∧
        d.started = true ∧ d.len = len ∧ d.src = (s.dmaArg i.site (i.ins.dWord 1)).1 ∧
        d.dst = (s.dmaArg i.site (i.ins.dWord 2)).1 ∧ d.aux0 = i.ins.dWord 3 ∧ d.aux1 = i.ins.dWord 4 ∧
        d.ac = i.ins.dAc i.site ∧ P d
      Completes c s (fun t => begun t (fun _ => True) ∧
        s.same t [.grid, .regs, .rig, .recov, .hold, .hbm, .rings]) ∧
      (kind = 0 → ∀ site rw a o o', src = .sram site rw → dst = .mem a → s.isOwn (gModule a) = true →
        placeOf (gOff a) = .hbm o → placeOf (gOff (a + len - 1)) = .hbm o' → Completes c s fun t =>
          begun t (fun d => d.complete = true ∧ d.bad = false ∧
            d.data = (List.range (cdiv len 64)).map fun u => ((s.sramUnit site rw u).1.take (len - 64 * u), (s.sramUnit site rw u).2)) ∧
          s.regsBut t (R.RIG_COUNT 12 :: dieRegs) ∧ s.same t [.grid, .regs] ∧ s.sends t []) ∧
      (kind = 2 → i.ins.dWord 3 % 8 < 5 → Completes c s fun t =>
        begun t (fun d => d.complete = true ∧ d.bad = false) ∧ s.regsBut t (R.RIG_COUNT 12 :: dieRegs) ∧
        s.same t [.grid, .regs] ∧ s.sends t []) ∧
      (∀ a o site rw, 5 ≤ kind → kind ≤ 8 → dst = .mem a → s.isOwn (gModule a) = true → placeOf (gOff a) = .hbm o →
        src = .sram site rw →
        let n := if len ≤ 64 then 4 else 8
        a % n = 0 → s.hbmPoisoned o n = false → Completes c s fun t =>
          let old := leNat (s.hbmRead o n)
          let v := (atomicNew (kind - 2) n old (i.ins.dWord 3 % 2 ^ (8 * n)) (i.ins.dWord 4 % 2 ^ (8 * n))).getD old
          begun t (fun d => d.complete = true ∧ d.data = [(s.hbmRead o n, false)]) ∧ leNat (t.hbmRead o n) = v ∧
          (∀ b, ¬ (o ≤ b ∧ b < o + n) → t.hbmByte b = s.hbmByte b) ∧ s.same t [.grid, .regs, .hold, .hbm] ∧ s.sends t []) ∧
      (∀ a o site rw, kind = 4 → src = .mem a → s.isOwn (gModule a) = true → placeOf (gOff a) = .hbm o →
        dst = .sram site rw →
        (leNat (s.hbmRead o 8) &&& i.ins.dWord 4) = (i.ins.dWord 3 &&& i.ins.dWord 4) → Completes c s fun t =>
          begun t (fun d => d.complete = true ∧ d.data = [(s.hbmRead o 8, s.hbmPoisonBits o 8 != 0)]) ∧
          t.rd (R.RIG_COUNT 18) = BitVec.ofNat 64 (((s.rd (R.RIG_COUNT 18)).toNat + 1) % 2 ^ 48) ∧
          s.same t [.grid, .regs, .hold] ∧ s.sends t []) ∧
      (∀ site rw a, kind = 9 → src = .sram site rw → rw < 8190 → dst = .mem a → s.isOwn (gModule a) = false →
        Completes c s fun t => s.issued t (.dma i.site s.grid.nextDma) (siteDie i.site) opDoorbell
          (a &&& 0xFFF0000000FFFF) none ((s.sramUnit site rw 0).1.take 16)) ∧
      (∀ site rw, kind = 3 → src = .sram site rw → rw < 8190 → len = 64 →
        let ad := bits (i.ins.dWord 3) 18 38 * 2 ^ 18
        s.isOwn (bits ad 44 12) = false → Completes c s fun t =>
          s.issued t (.dma i.site s.grid.nextDma) (siteDie i.site) opReduce ad none (s.sramUnit site rw 0).1))

/-- What becomes of DMA commands (R194, R204, R213, R235 to R237, R337, R351, R352): a command that is complete writes its
data to its destination, counts once on its arrival counter and leaves the queue; a side port accepts a unit, or drops it
as a late write while a bank of the tile is powered down, performs the oldest unit, and counts or becalms for what it
reads; a POLL reads again, a refused chunk is sent again, and a round that is not complete in time fails,
its half of DEST left open (R352, log 141). -/
def Obligations.DmaCommandEnds : Prop :=
  let memCounts : List Nat := (List.range 4).flatMap fun d => [R.MEM_COUNT d 0, R.MEM_COUNT d 1, R.MEM_COUNT d 2]
  (∀ (id a o k : Nat) (c : DmaCmd) (s : State), s.grid.dma = [c] → c.id = id → c.complete = true → s.rig.ended = [] →
    c.kind ≠ 4 → c.flush = none → c.strip = [] → c.ac = some k → dmaEnd c.site c.dest = .mem a →
    s.isOwn (gModule a) = true → placeOf (gOff a) = .hbm o → o + 64 * c.data.length ≤ 0x9000000000 →
    (∀ u ∈ c.data, u.1.length = 64 ∧ u.2 = false) → s.boot.failing = false → Completes (.dmaTransferEnd id) s fun t =>
      t.grid.dma = [] ∧ tget (fun _ => (0 : W32)) t.grid.acs k = tget (fun _ => 0) s.grid.acs k + 1 ∧
      (∀ j, j ≠ k → tget (fun _ => (0 : W32)) t.grid.acs j = tget (fun _ => 0) s.grid.acs j) ∧
      (∀ b, t.hbmByte b = if o ≤ b ∧ b < o + 64 * c.data.length then (c.data.flatMap (·.1)).getD (b - o) 0
        else s.hbmByte b) ∧
      t.grid = { s.grid with dma := [], acs := t.grid.acs, acNow := t.grid.acNow } ∧
      s.regsBut t (R.RIG_COUNT 12 :: (memCounts ++ dieRegs)) ∧ s.same t [.grid, .regs, .hold, .hbm] ∧ s.sends t []) ∧
  (∀ (die : Fin 4) (row : Fin 32) (col : Fin 48) (r : BitVec 13) (err : Fin 4) (s : State), s.boot.failing = false →
    (∀ u ∈ s.usersOf (siteN die row col), u.2.2.erase = []) →
    let site := siteN die row col
    (∀ (c : DmaCmd) (rw : Nat) (u : List Byte × Bool), s.feeding site = some c → dmaEnd c.site c.dest = .sram site rw →
      c.data[c.offered]? = some u →
      (s.downBanks site = 0 → Completes (.sidePortAccess die row col 0 r err) s fun t =>
        t.grid = { s.grid with
          side := s.grid.side ++ [⟨site, unitRow site rw c.offered, u.1, u.2, c.id⟩]
          dma := s.grid.dma.map fun x => if x.id = c.id then { c with offered := c.offered + 1 } else x } ∧
        s.regsBut t dieRegs ∧ s.same t [.grid, .regs] ∧ s.sends t []) ∧
      (s.downBanks site ≠ 0 → Completes (.sidePortAccess die row col 0 r err) s fun t =>
        t.grid = { s.grid with
          dma := s.grid.dma.map fun x => if x.id = c.id then { c with offered := c.offered + 1, bad := true } else x } ∧
        t.rd (R.MEM_COUNT die.val 10) = BitVec.ofNat 64 (((s.rd (R.MEM_COUNT die.val 10)).toNat + 1) % 2 ^ 48) ∧
        t.gf (F.MEM_EVENTS_LATE_WRITE die.val) = 1 ∧
        s.regsBut t ([R.MEM_COUNT die.val 10, R.MEM_EVENTS die.val, R.MEM_EVENTS_REOCC die.val,
          R.MEM_LATE_WRITE_REC die.val] ++ dieRegs) ∧ s.same t [.grid, .regs] ∧ s.sends t [])) ∧
    (∀ w : SideWrite, (s.grid.side.find? fun w => w.site = site) = some w → w.data.length = 64 → w.poison = false →
      w.row + 64 / rowLen site ≤ 8192 → Completes (.sidePortAccess die row col 1 r err) s fun t =>
        t.grid.side = s.grid.side.erase w ∧
        (∀ b, tget hbmDefault t.grid.sram b =
          if sramKey site w.row ≤ b ∧ b < sramKey site w.row + 64 then w.data.getD (b - sramKey site w.row) 0
          else tget hbmDefault s.grid.sram b) ∧
        t.rowMark site w.row = false ∧
        t.grid = { s.grid with side := t.grid.side, sram := t.grid.sram, sramPoison := t.grid.sramPoison } ∧
        s.regsBut t dieRegs ∧ s.same t [.grid, .regs] ∧ s.sends t []) ∧
    (isM site = true → Completes (.sidePortAccess die row col 2 r 2) s fun t =>
      t.grid = { s.grid with freezes := s.grid.freezes ++ [(s.arith + 6, s.arith + 13)] } ∧
      t.gf (F.GRID_EVENTS_BECALM die.val) = 1 ∧
      t.rd (R.GRID_COUNT die.val 0) = BitVec.ofNat 64 (((s.rd (R.GRID_COUNT die.val 0)).toNat + 1) % 2 ^ 48) ∧
      s.regsBut t ([R.GRID_COUNT die.val 0, R.GRID_EVENTS die.val, R.GRID_EVENTS_REOCC die.val,
        R.GRID_SRAM_ERR die.val] ++ dieRegs) ∧ s.same t [.grid, .regs] ∧ s.sends t [])) ∧
  (∀ (id a o : Nat) (c : DmaCmd) (s : State), s.grid.dma = [c] → c.id = id → c.kind = 4 → c.started = true →
    c.ready = false → c.pushed = false → c.out = 0 → dmaEnd c.site c.src = .mem a → s.isOwn (gModule a) = true →
    placeOf (gOff a) = .hbm o → (∀ b, dmaEnd c.site c.dest ≠ .mem b) → s.rig.ended = [] → s.boot.failing = false →
    c.pollAt + 4 * max 1 (s.gf F.RIG_GAPS_POLL_INTERVAL) ≤ s.now → Completes (.pollRead id) s fun t =>
      let w := leNat (s.hbmRead o 8)
      t.grid.dma = [if (w &&& c.aux1) = (c.aux0 &&& c.aux1) ∨ w.testBit 63 = true
        then { c with
          pollAt := s.now, ready := true, pushed := true, data := [(leBytes 8 w, s.hbmPoisonBits o 8 != 0)] }
        else { c with pollAt := s.now }] ∧
      t.rd (R.RIG_COUNT 18) = BitVec.ofNat 64 (((s.rd (R.RIG_COUNT 18)).toNat + 1) % 2 ^ 48) ∧
      s.regsBut t ([R.RIG_COUNT 18, R.RIG_COUNT 12] ++ (memCounts ++ dieRegs)) ∧ s.same t [.grid, .regs, .hold] ∧
      s.sends t []) ∧
  (∀ (id ad at_ : Nat) (c : DmaCmd) (s : State), s.grid.dma = [c] → c.id = id → c.retry = [(ad, at_)] → c.started = true →
    c.kind = 3 → c.pushed = true → s.boot.failing = false → s.rig.ended = [] → s.isOwn (bits ad 44 12) = false →
    at_ + 4 * max 1 (s.gf F.RIG_GAPS_RED_RETRY_GAP) ≤ s.now → Completes (.redRetry id) s fun t =>
      let w := if c.aux0.testBit 16 then 2 else 4
      s.issued t c.issuer (siteDie c.site) opReduce ad none
        ((((c.data.drop (ad % 2 ^ 18 * w)).take w).flatMap (·.1)).take (64 * w)) ∧
      ∃ d, t.grid.dma = [d] ∧ d.retry = [] ∧ d.id = id ∧ d.data = c.data) ∧
  (∀ (die : Fin 4) (group : Byte) (d o j : Nat) (s : State),
    let g := s.redGroup die.val group.toNat
    g.first0 = some d → g.declared = true → d ≠ 0 → s.isOwn (gModule g.doneAddr) = true →
    placeOf (gOff g.doneAddr) = .hbm o → j < g.chunks → g.nextOf 1 j < g.nSlots → s.grid.idle = true →
    Completes (.reduceRoundTimeout die group) s fun t =>
      t.now = max s.now d ∧ (t.redGroup die.val group.toNat).rc = (g.rc + 1) % 2 ^ 16 ∧
      (t.redGroup die.val group.toNat).staged = g.staged.filter (fun x => x.round != g.rc) ∧
      (∀ b, let half := g.dest + g.rc % 2 * 4 * g.length
        if o ≤ b ∧ b < o + 8 then t.hbmByte b = (leBytes 8 (g.rc % 2 ^ 16 + 2 ^ 16 + 2 ^ 63)).getD (b - o) 0
        else (half ≤ b ∧ b < half + 4 * g.length) ∨ t.hbmByte b = s.hbmByte b) ∧
      t.rd (R.RIG_COUNT 16) = BitVec.ofNat 64 (((s.rd (R.RIG_COUNT 16)).toNat + 1) % 2 ^ 48) ∧
      t.gf F.RIG_EVENTS_RED_FAILED = 1 ∧
      s.regsBut t ([R.RIG_COUNT 16, R.RIG_EVENTS, R.RIG_EVENTS_REOCC, R.RED_OCC die.val] ++ memCounts) ∧
      s.same t [.now, .freeCtr, .ptp, .rig, .regs, .hold, .hbm] ∧ s.sends t [])

/-- Training sequences (R301, R306, R308, R309): ENABLE starts a sequence closed, at step 0 and with no verdict; a CLOSE of
an open one in which no tensor is far off is ACCEPT and counts the step, and FAILED when a read failed or the census was
lost; an OPEN opens it; either in the wrong order sets SEQ_ORDER and does nothing; a disabled sequence is closed. -/
def Obligations.TrainingSequences : Prop :=
  ∀ (q : Fin 8) (ext : List (Nat × List Byte)) (s : State), s.boot.failing = false → s.grid.seqOps = [] →
    s.rig.ended = [] →
    (s.flag (F.SEQ_CFG_ENABLE q.val) = false → Completes (.seqEnable q) s fun t =>
      t.flag (F.SEQ_CFG_ENABLE q.val) = true ∧ t.gf (F.SEQ_STEP_STEP q.val) = 0 ∧
      t.gf (F.SEQ_VERDICT_VERDICT q.val) = 0 ∧ t.gf (F.SEQ_VERDICT_REPLAYS q.val) = 0 ∧
      t.gf (F.SEQ_VERDICT_FAR_TENSORS q.val) = s.gf (F.SEQ_VERDICT_FAR_TENSORS q.val) ∧
      t.isOpen q.val = false ∧ (∀ p, p ≠ q.val → t.isOpen p = s.isOpen p) ∧
      s.regsBut t [R.SEQ_CFG q.val, R.SEQ_STEP q.val, R.SEQ_VERDICT q.val, R.QNT_STATUS] ∧ s.same t [.regs] ∧
      s.sends t []) ∧
    (s.flag (F.SEQ_CFG_ENABLE q.val) = true → Completes (.seqEnable q) s fun t => s.same t [] ∧ s.sends t []) ∧
    (s.flag (F.SEQ_CFG_ENABLE q.val) = true → Completes (.seqDisable q) s fun t =>
      t.flag (F.SEQ_CFG_ENABLE q.val) = false ∧ t.isOpen q.val = false ∧
      (∀ p, p ≠ q.val → t.isOpen p = s.isOpen p) ∧ s.regsBut t [R.SEQ_CFG q.val, R.QNT_STATUS] ∧
      s.same t [.grid, .regs] ∧ s.sends t []) ∧
    (s.flag (F.SEQ_CFG_ENABLE q.val) = true → s.isOpen q.val = true → s.seqInUse q.val = false →
      s.grid.disabling.testBit q.val = false →
      (s.grid.lost.testBit q.val = true → Completes (.seqClose q ext) s fun t =>
        t.gf (F.SEQ_VERDICT_VERDICT q.val) = vdFailed ∧ t.isOpen q.val = false ∧
        t.rd (R.SEQ_STEP q.val) = s.rd (R.SEQ_STEP q.val) ∧
        t.rd (R.QNT_COUNT 0) = BitVec.ofNat 64 (((s.rd (R.QNT_COUNT 0)).toNat + 1) % 2 ^ 48) ∧
        s.regsBut t [R.SEQ_VERDICT q.val, R.QNT_STATUS, R.QNT_COUNT 0] ∧ s.same t [.grid, .regs] ∧ s.sends t []) ∧
      (∀ ts, s.grid.lost.testBit q.val = false → s.grid.openErr.testBit q.val = false → s.tensors ext q.val = some ts →
        (∀ x ∈ ts, farOff x.1 x.2 = (false, false)) → Completes (.seqClose q ext) s fun t =>
          t.gf (F.SEQ_VERDICT_VERDICT q.val) = vdAccept ∧ t.gf (F.SEQ_VERDICT_REPLAYS q.val) = 0 ∧
          t.gf (F.SEQ_VERDICT_FAR_TENSORS q.val) = 0 ∧
          t.gf (F.SEQ_STEP_STEP q.val) = (s.gf (F.SEQ_STEP_STEP q.val) + 1) % 2 ^ 40 ∧ t.isOpen q.val = false ∧
          t.rd (R.QNT_COUNT 0) = BitVec.ofNat 64 (((s.rd (R.QNT_COUNT 0)).toNat + 1) % 2 ^ 48) ∧
          t.rd (R.QNT_COUNT 1) = BitVec.ofNat 64 (((s.rd (R.QNT_COUNT 1)).toNat + 1) % 2 ^ 48) ∧
          s.regsBut t [R.SEQ_VERDICT q.val, R.SEQ_STEP q.val, R.QNT_STATUS, R.QNT_COUNT 0, R.QNT_COUNT 1,
            R.QNT_COUNT 5] ∧ s.same t [.grid, .regs] ∧ s.sends t [])) ∧
    (s.flag (F.SEQ_CFG_ENABLE q.val) = true → s.isOpen q.val = false → s.grid.disabling.testBit q.val = false →
      Completes (.seqOpen q ext) s fun t =>
        t.isOpen q.val = true ∧ (∀ p, p ≠ q.val → t.isOpen p = s.isOpen p) ∧ t.grid.lost.testBit q.val = false ∧
        t.rd (R.SEQ_STEP q.val) = s.rd (R.SEQ_STEP q.val) ∧ t.rd (R.SEQ_VERDICT q.val) = s.rd (R.SEQ_VERDICT q.val)) ∧
    (∀ isOpen : Bool, s.isOpen q.val = isOpen → (isOpen = true ∨ s.seqInUse q.val = false) →
      s.grid.disabling.testBit q.val = false →
      Completes (if isOpen then .seqOpen q ext else .seqClose q ext) s fun t =>
        t.gf F.QNT_EVENTS_SEQ_ORDER = 1 ∧ s.regsBut t [R.QNT_EVENTS, R.QNT_EVENTS_REOCC, R.QNT_STATUS] ∧
        (∀ p, t.isOpen p = s.isOpen p) ∧ s.same t [.grid, .regs] ∧ s.sends t [])

/-! ### The Rigging -/

/-- A Rigging port's course (R321, R324, R427, R428): trained, it enters ATTESTING and sends HELLO; the peer's HELLO is
answered with PROVE; a PROVE that passes every check brings the port UP; each failure, the time limit among them, takes
it to its state; a second later it trains again; a loss of alignment takes it down, and an operation it had sent ends
with LINK_LOST. -/
def Obligations.RigPortTraining : Prop :=
  ∀ (n : Fin 32) (s : State),
    (s.linkState n = lsTraining → s.pwr.serdesLost = false →
      (s.rngOk = true → Completes (.rigPortTrained n) s fun t =>
        t.linkState n = lsAttesting ∧ (t.rigPort n).since = s.now ∧ (t.rigPort n).peer = [] ∧
        s.sends t [.attest n 1 (attFrame (t.rigPort n).hello)] ∧ (∀ k, k ≠ n.val → t.rigPort k = s.rigPort k) ∧
        s.regsBut t [R.RIGP_STATUS n] ∧ s.same t [.rig, .regs, .freeCtr]) ∧
      (s.rngOk = false → Completes (.rigPortTrained n) s fun t => s.attestFailed t n arEntropy)) ∧
    (s.linkState n = lsAttesting → s.now ≤ s.attestLimit n → s.rngOk = true →
      (∀ frame, (s.rigPort n).peer = [] →
        (attBody frame = none → Completes (.hello n frame) s fun t => s.attestFailed t n arMessage) ∧
        (∀ b, attBody frame = some b → helloOk b = false → Completes (.hello n frame) s fun t =>
          s.attestFailed t n arMessage) ∧
        (∀ b, attBody frame = some b → helloOk b = true → helloNonce b = helloNonce (s.rigPort n).hello →
          Completes (.hello n frame) s fun t => t.linkState n = lsAttesting ∧ (t.rigPort n).peer = [] ∧
            s.sends t [.attest n 1 (attFrame (t.rigPort n).hello)] ∧ s.same t [.rig, .freeCtr]) ∧
        (∀ b, attBody frame = some b → helloOk b = true → helloNonce b ≠ helloNonce (s.rigPort n).hello →
          Completes (.hello n frame) s fun t =>
            let low := decide (helloNonce (s.rigPort n).hello < helloNonce b)
            (t.rigPort n).peer = b ∧ (t.rigPort n).low = low ∧
            (t.rigPort n).th = Config.sha384 (if low then (s.rigPort n).hello ++ b else b ++ (s.rigPort n).hello) ∧
            s.sends t [.attest n 2 (attFrame (beBytes 1 2 ++ beBytes 3 0 ++ slice (Config.ecdsaSign (s.boot.fuse.idKey.getD 0)
              (Config.sha384 ((t.rigPort n).th ++ beBytes 1 (b2n (!low))))) 0 96))] ∧ s.same t [.rig])) ∧
      (∀ frame, (s.rigPort n).peer ≠ [] → Completes (.prove n frame) s fun t =>
        match s.proveReason n frame with
        | some k => s.attestFailed t n k
        | none =>
          t.linkState n = lsUp ∧ t.gf (F.RIGP_STATUS_PEER_SEEN n) = beAt (s.rigPort n).peer 2 2 % 4096 ∧
          t.rd (R.SEC_COUNT 3) = BitVec.ofNat 64 (((s.rd (R.SEC_COUNT 3)).toNat + 1) % 2 ^ 48) ∧
          (t.rigPort n).replay = [] ∧ (t.rigPort n).cred0 = 1024 ∧ (t.rigPort n).rxSeq = 0 ∧
          (s.flag (F.RIGP_CFG_ENC n) = true → (t.rigPort n).tx = (s.rigPort n).keyed.tx ∧
            (t.rigPort n).rx = (s.rigPort n).keyed.rx) ∧
          (∀ k, k ≠ n.val → t.rigPort k = s.rigPort k) ∧ s.regsBut t [R.RIGP_STATUS n, R.SEC_COUNT 3] ∧
          s.same t [.rig, .regs] ∧ s.sends t [])) ∧
    (s.linkState n = lsAttesting → s.grid.idle = true → Completes (.attestTimeout n) s fun t =>
      (s.advanceTo (s.attestLimit n)).attestFailed t n arTimeout ∧ t.now = max s.now (s.attestLimit n)) ∧
    (lsDown ≤ s.linkState n → s.linkState n ≤ lsAttestFailed → s.startFailed = false → s.grid.idle = true →
      Completes (.rigPortRetry n) s fun t =>
        t.linkState n = lsTraining ∧ t.now = max s.now ((s.rigPort n).since + 32 * 75000000) ∧
        (t.rigPort n).since = t.now ∧ (∀ k, k ≠ n.val → t.rigPort k = s.rigPort k) ∧ s.regsBut t [R.RIGP_STATUS n] ∧
        s.same t [.rig, .regs, .now, .ptp] ∧ s.sends t []) ∧
    (s.linkState n = lsAttesting ∨ s.linkState n = lsTraining → s.boot.failing = false →
      Completes (.rigPortDown n) s fun t =>
        t.linkState n = lsDown ∧ s.regsBut t ([R.RIGP_STATUS n, R.JOB_STATUS] ++ dieRegs) ∧ s.same t [.rig, .regs] ∧
        s.sends t []) ∧
    (∀ (txn slot : Nat) (o : OutOp), s.linkState n = lsUp → s.boot.failing = false → s.rig.ops = [(txn, o)] → o.port = n →
      o.issuer = .missEngine slot → (s.rigPort n).q0 = [] → (s.rigPort n).q1 = [] → s.rig.ended = [] → s.recov.logs = [] →
      s.grid.dma = [] → s.rig.waiting = [] → Completes (.rigPortDown n) s fun t =>
        t.linkState n = lsDown ∧ t.rig.ops = [] ∧ t.gf (F.RIGP_EVENTS_LINK_DOWN n) = 1 ∧
        t.gf F.RIG_EVENTS_LINK_LOST = 1 ∧
        t.rd (R.RIG_COUNT 2) = BitVec.ofNat 64 (((s.rd (R.RIG_COUNT 2)).toNat + 1) % 2 ^ 48) ∧
        (∃ e, t.rig.ended = [e] ∧ e.issuer = .missEngine slot ∧ e.status = stLinkLost) ∧ (t.rigPort n).replay = [] ∧
        s.regsBut t ([R.RIG_COUNT 2, R.RIG_ERR_REC, R.RIG_OUTSTANDING, R.JOB_STATUS] ++ portRegs n ++ dieRegs) ∧
        s.same t [.rig, .regs] ∧ s.sends t [])

/-- Requests that arrive (R327 to R330, R333, R335, R343 to R346, R349, R361, R385, R387): a READ returns the bytes, a
WRITE stores them, an atomic returns the old value and stores the new one, the first slot of a REDUCE is stored, a
DOORBELL writes an entry of its ring; each is counted in OPS_SERVED and answered OK. One that the module shuts out is
answered ACCESS_DENIED, one with a bad tag E2E_ERROR, one for another module and one with a reserved opcode not at all,
and none of these changes memory. -/
def Obligations.RigRequestsServed : Prop :=
  ∀ (n : Fin 32) (p : Pkt) (s : State),
    let served (t : State) : Prop :=
      t.rd (R.RIG_COUNT 1) = BitVec.ofNat 64 (((s.rd (R.RIG_COUNT 1)).toNat + 1) % 2 ^ 48)
    (∀ o, s.admits n p → placeOf (gOff p.addr) = .hbm o →
      (p.opcode = opRead → p.crosses = false → Completes (.read n p 0) s fun t =>
        served t ∧ s.responded t n p stOk (s.hbmRead o p.length) ∧ s.same t [.rig, .regs, .hold, .recov]) ∧
      (p.opcode = opWrite → p.crosses = false → p.length ≤ p.payload.length → p.poison = 0 →
        Completes (.write n p) s fun t =>
          served t ∧ s.responded t n p stOk [] ∧
          (∀ b, t.hbmByte b = if o ≤ b ∧ b < o + p.length then p.payload.getD (b - o) 0 else s.hbmByte b) ∧
          s.same t [.rig, .regs, .hold, .hbm, .recov]) ∧
      (∀ c, [Instr.atomicAdd n p, .atomicUmax n p, .atomicSmax n p, .atomicCas n p][p.opcode - opAdd]? = some c →
        opAdd ≤ p.opcode → (p.length = 4 ∨ p.length = 8) → p.addr % p.length = 0 → s.hbmPoisoned o p.length = false →
        Completes c s fun t =>
          let k := p.length
          let old := leNat (s.hbmRead o k)
          let v := (atomicNew p.opcode k old (if p.opcode = opCas then leAt p.payload k k else leAt p.payload 0 k)
            (if p.opcode = opCas then leAt p.payload 0 k else 0)).getD old
          served t ∧ s.responded t n p stOk (s.hbmRead o k) ∧ leNat (t.hbmRead o k) = v ∧
          (∀ b, ¬ (o ≤ b ∧ b < o + k) → t.hbmByte b = s.hbmByte b) ∧ s.same t [.rig, .regs, .hold, .hbm, .recov])) ∧
    (let a := p.address.toNat
     let g := s.redGroup (bits a 42 2) (bits a 34 8)
     s.admits n p → p.opcode = opReduce → g.declared = true → bits a 0 18 < g.chunks → 1 < g.nSlots →
      bits a 18 16 = g.rc → bits p.aux 0 12 = 0 → p.aux.testBit 12 = false → p.poison = 0 →
      g.nextOf 0 (bits a 0 18) = 0 → g.staged = [] → 4 * g.elems (bits a 0 18) ≤ p.payload.length →
      Completes (.reduce n p) s fun t =>
        let base := g.dest + (g.rc % 2) * 4 * g.length + 256 * bits a 0 18
        served t ∧ s.responded t n p stOk [] ∧ (t.redGroup (bits a 42 2) (bits a 34 8)).nextOf 0 (bits a 0 18) = 1 ∧
        t.rd (R.RIG_COUNT 10) = BitVec.ofNat 64 (((s.rd (R.RIG_COUNT 10)).toNat + 1) % 2 ^ 48) ∧
        (∀ b, t.hbmByte b = if base ≤ b ∧ b < base + 4 * g.elems (bits a 0 18) then p.payload.getD (b - base) 0
          else s.hbmByte b) ∧ s.same t [.rig, .regs, .hold, .hbm, .recov]) ∧
    (let r := p.address.toNat % 65536
     s.admits n p → p.opcode = opDoorbell → s.ringOn r = true → s.ringClass r = rcDoorbell →
      sub32 (s.devIdx r) (s.swIdx r) < s.ringSize r → (s.rd (R.RING_IDX_MIRROR r)).toNat.testBit 62 = false →
      ∀ h, target (s.unitAddr r (s.devIdx r)) = .host h → Completes (.doorbell n p) s fun t =>
        served t ∧ t.devIdx r = (s.devIdx r + 1) % 2 ^ 32 ∧
        Out.hostWrite h (doorbellEntry p.source.toNat p.aux p.payload) ∈ t.out ∧
        s.responded t n p stOk [] ∧ s.same t [.rig, .regs, .rings, .recov]) ∧
    (∀ c, [Instr.read n p 0, .write n p, .atomicAdd n p, .atomicUmax n p, .atomicSmax n p, .atomicCas n p, .reduce n p,
        .doorbell n p][p.opcode - opRead]? = some c → opRead ≤ p.opcode → s.arrives n p →
      (s.isOwn p.dst.toNat = true → p.e2e = p.e2eTag → s.shutOut p = true → Completes c s fun t =>
        t.rd (R.RIG_COUNT 9) = BitVec.ofNat 64 (((s.rd (R.RIG_COUNT 9)).toNat + 1) % 2 ^ 48) ∧
        t.gf F.RIG_EVENTS_REMOTE_DENIED = 1 ∧ s.responded t n p stDenied [] ∧ s.same t [.rig, .regs, .recov]) ∧
      (s.isOwn p.dst.toNat = true → p.e2e ≠ p.e2eTag → Completes c s fun t =>
        t.rd (R.RIG_COUNT 6) = BitVec.ofNat 64 (((s.rd (R.RIG_COUNT 6)).toNat + 1) % 2 ^ 48) ∧
        t.gf F.RIG_EVENTS_E2E_ERROR = 1 ∧ s.responded t n p stE2e [] ∧ s.same t [.rig, .regs, .recov]) ∧
      (s.isOwn p.dst.toNat = false → Completes c s fun t =>
        t.rd (R.RIG_COUNT 7) = BitVec.ofNat 64 (((s.rd (R.RIG_COUNT 7)).toNat + 1) % 2 ^ 48) ∧
        t.gf F.RIG_EVENTS_MISROUTED = 1 ∧
        s.regsBut t ([R.RIG_COUNT 7, R.JOB_STATUS] ++ portRegs n ++ dieRegs) ∧ s.same t [.rig, .regs])) ∧
    (opReserved p.opcode = true → s.arrives n p → Completes (.badOpcode n p) s fun t =>
      t.rd (R.RIG_COUNT 8) = BitVec.ofNat 64 (((s.rd (R.RIG_COUNT 8)).toNat + 1) % 2 ^ 48) ∧
      t.gf F.RIG_EVENTS_BAD_OPCODE = 1 ∧ (t.rigPort n).rxSeq = ((s.rigPort n).rxSeq + 1) % 4096 ∧
      s.regsBut t ([R.RIG_COUNT 8, R.JOB_STATUS] ++ portRegs n ++ dieRegs) ∧ s.same t [.rig, .regs])

/-- The end of an operation (R328, R329, R336, R360): a response ends its operation with its STATUS and data, or with
E2E_ERROR and poison when its tag is bad; a response that no operation waits for is counted; an operation without one
ends with TIMEOUT at its limit. Each error is recorded. Shown for an operation of the miss engine. -/
def Obligations.RigOperationEnds : Prop :=
  ∀ (s : State) (slot : Nat), s.rig.ended = [] → s.rig.waiting = [] → s.recov.logs = [] → s.grid.dma = [] →
    s.boot.failing = false →
    (∀ (n : Fin 32) (p : Pkt) (o : OutOp), s.arrives n p → p.opcode = opResponse → s.isOwn p.dst.toNat = true →
      s.fenced p.source.toNat = false →
      (tfind p.txn s.rig.ops = none → Completes (.response n p) s fun t =>
        t.rd (R.RIG_COUNT 4) = BitVec.ofNat 64 (((s.rd (R.RIG_COUNT 4)).toNat + 1) % 2 ^ 48) ∧
        t.rig.ops = s.rig.ops ∧ t.rig.ended = [] ∧
        s.regsBut t ([R.RIG_COUNT 4, R.JOB_STATUS] ++ portRegs n ++ dieRegs) ∧ s.same t [.rig, .regs]) ∧
      (tfind p.txn s.rig.ops = some o → o.issuer = .missEngine slot →
        (p.e2e = p.e2eTag → p.aux % 256 = stOk → Completes (.response n p) s fun t =>
          t.rig.ops = tdel p.txn s.rig.ops ∧ (∃ e, t.rig.ended = [e] ∧ e.issuer = o.issuer ∧ e.status = stOk ∧
            e.data = p.payload ∧ e.poison = p.poison) ∧
          s.regsBut t ([R.RIG_OUTSTANDING, R.JOB_STATUS] ++ portRegs n ++ dieRegs) ∧
          s.same t [.rig, .regs]) ∧
        (p.e2e ≠ p.e2eTag → Completes (.response n p) s fun t =>
          t.rig.ops = tdel p.txn s.rig.ops ∧ (∃ e, t.rig.ended = [e] ∧ e.issuer = o.issuer ∧ e.status = stE2e ∧
            e.poison = 15) ∧ t.gf F.RIG_EVENTS_E2E_ERROR = 1 ∧
          t.rd (R.RIG_COUNT 6) = BitVec.ofNat 64 (((s.rd (R.RIG_COUNT 6)).toNat + 1) % 2 ^ 48) ∧
          s.regsBut t ([R.RIG_COUNT 6, R.RIG_ERR_REC, R.RIG_OUTSTANDING, R.JOB_STATUS] ++ portRegs n ++ dieRegs) ∧
          s.same t [.rig, .regs]))) ∧
    (∀ (txn : W32) (o : OutOp), tfind txn.toNat s.rig.ops = some o → o.issuer = .missEngine slot → s.grid.idle = true →
      s.unsent txn.toNat o = false → Completes (.operationTimeout txn) s fun t =>
        t.now = max s.now o.limit ∧ t.rig.ops = tdel txn.toNat s.rig.ops ∧
        (∃ e, t.rig.ended = [e] ∧ e.issuer = o.issuer ∧ e.status = stTimeout) ∧ t.gf F.RIG_EVENTS_TIMEOUT = 1 ∧
        t.rd (R.RIG_COUNT 3) = BitVec.ofNat 64 (((s.rd (R.RIG_COUNT 3)).toNat + 1) % 2 ^ 48) ∧
        (s.rd R.RIG_EVENTS = 0 → t.gf F.RIG_ERR_REC_STATUS = stTimeout ∧
          t.gf F.RIG_ERR_REC_ADDRESS = o.pkt.address.toNat % 2 ^ 56) ∧
        s.regsBut t ([R.RIG_COUNT 3, R.RIG_EVENTS, R.RIG_EVENTS_REOCC, R.RIG_ERR_REC, R.RIG_OUTSTANDING, R.JOB_STATUS] ++
          dieRegs) ∧ s.same t [.rig, .regs, .now, .ptp] ∧ s.sends t [])

/-- The link layer (R323, R325, R356, R430): an acknowledged packet and those before it leave the replay buffer; a NAK and
a silent 2,048 CK_MEM cycles re-send, and the limit of re-sends in a row takes the port down; credits return, up to
1,024; the first packet of a run that cannot be accepted is answered with one NAK; the timer acknowledges what was
accepted; a direction whose count has come to a new generation takes its next key. -/
def Obligations.RigLinkLayer : Prop :=
  ∀ (n : Fin 32) (s : State), s.linkState n = lsUp → s.boot.failing = false →
    let r := s.rigPort n
    (s.flag (F.RIGP_CFG_ENC n) = false → r.rx.due = false →
      (∀ seq : BitVec 12, seqIndex seq.toNat r.replay = none →
        (Completes (.linkAck n seq) s fun t => s.same t [] ∧ s.sends t []) ∧
        (Completes (.linkNak n seq) s fun t => s.same t [] ∧ s.sends t [])) ∧
      (∀ (seq : BitVec 12) (i : Nat), seqIndex seq.toNat r.replay = some i →
        (r.q0 = [] → r.q1 = [] → r.q2 = [] → s.rig.waiting = [] → Completes (.linkAck n seq) s fun t =>
          (t.rigPort n).replay = r.replay.drop (i + 1) ∧ (t.rigPort n).resends = 0 ∧
          (∀ k, k ≠ n.val → t.rigPort k = s.rigPort k) ∧ s.regsBut t (portRegs n) ∧ s.same t [.rig, .regs] ∧
          s.sends t []) ∧
        (r.resends < max 1 (s.gf F.RIG_CTRL_RETRY_LIMIT) → Completes (.linkNak n seq) s fun t =>
          (t.rigPort n).replay = r.replay ∧ (t.rigPort n).resends = r.resends + 1 ∧
          s.sends t ((r.replay.drop i).map fun p => .packet n p (p.wire false r.tx)).reverse ∧
          t.rd (R.RIGP_COUNT n 6) = BitVec.ofNat 64 (((s.rd (R.RIGP_COUNT n 6)).toNat + 1) % 2 ^ 48) ∧
          s.regsBut t (R.JOB_STATUS :: (portRegs n ++ dieRegs)) ∧ s.same t [.rig, .regs])) ∧
      (r.replay ≠ [] → r.resends < max 1 (s.gf F.RIG_CTRL_RETRY_LIMIT) → s.grid.idle = true →
        Completes (.replayTimeout n) s fun t =>
          t.now = max s.now (r.advAt + 4 * 2048) ∧ (t.rigPort n).resends = r.resends + 1 ∧
          s.sends t (r.replay.map fun p => .packet n p (p.wire false r.tx)).reverse ∧
          s.regsBut t (R.JOB_STATUS :: (portRegs n ++ dieRegs)) ∧ s.same t [.rig, .regs, .now, .ptp]) ∧
      (∀ aux : W32, r.q0 = [] → r.q1 = [] → r.q2 = [] → s.rig.waiting = [] → Completes (.linkCredit n aux) s fun t =>
        (t.rigPort n).cred0 = min 1024 (r.cred0 + bits aux.toNat 0 10) ∧
        (t.rigPort n).cred1 = min 1024 (r.cred1 + bits aux.toNat 10 10) ∧
        (t.rigPort n).cred2 = min 1024 (r.cred2 + bits aux.toNat 20 10) ∧
        (∀ k, k ≠ n.val → t.rigPort k = s.rigPort k) ∧ s.regsBut t (portRegs n) ∧ s.same t [.rig, .regs] ∧ s.sends t []) ∧
      (r.unacked ≠ 0 → s.grid.idle = true → Completes (.ackTimer n) s fun t =>
        t.now = max s.now (r.ackFrom + 128) ∧ (t.rigPort n).unacked = 0 ∧
        s.sends t [.linkCtl n 0x20 ((r.rxSeq + 4095) % 4096)] ∧ (∀ a, t.rd a = s.rd a) ∧
        s.same t [.rig, .now, .ptp]) ∧
      (∀ why : Fin 3,
        (r.nakSent = true → Completes (.linkCheckFail n why) s fun t => t.rig = s.rig ∧ s.sends t [] ∧ s.same t [.regs]) ∧
        (r.nakSent = false → Completes (.linkCheckFail n why) s fun t =>
          s.sends t [.linkCtl n 0x21 r.rxSeq] ∧ (t.rigPort n).nakSent = true ∧ (t.rigPort n).rxSeq = r.rxSeq ∧
          t.rd (R.RIGP_COUNT n 5) = BitVec.ofNat 64 (((s.rd (R.RIGP_COUNT n 5)).toNat + 1) % 2 ^ 48) ∧
          s.regsBut t (portRegs n) ∧ s.same t [.rig, .regs]))) ∧
    (r.replay ≠ [] → max 1 (s.gf F.RIG_CTRL_RETRY_LIMIT) ≤ r.resends → s.rig.ops = [] → r.q0 = [] → r.q1 = [] →
      s.rig.ended = [] → s.rig.waiting = [] → s.recov.logs = [] → s.grid.dma = [] → r.advAt + 4 * 2048 ≤ s.now →
      Completes (.replayTimeout n) s fun t =>
        t.linkState n = lsDown ∧ t.gf (F.RIGP_EVENTS_RETRY_LIMIT n) = 1 ∧ (t.rigPort n).replay = [] ∧
        s.same t [.rig, .regs] ∧ s.sends t []) ∧
    (∀ isTx : Bool, s.flag (F.RIGP_CFG_ENC n) = true → (if isTx then r.tx else r.rx).due = true →
      Completes (.rekey n isTx) s fun t =>
        t.rigPort n = (if isTx then { r with tx := r.tx.next } else { r with rx := r.rx.next }) ∧
        (∀ k, k ≠ n.val → t.rigPort k = s.rigPort k) ∧
        t.rd (R.SEC_COUNT 5) = BitVec.ofNat 64 (((s.rd (R.SEC_COUNT 5)).toNat + 1) % 2 ^ 48) ∧
        s.regsBut t [R.SEC_COUNT 5] ∧ s.same t [.rig, .regs] ∧ s.sends t [])

/-! ### Recovery -/

/-- Membership and the crow's nest (R384 to R387, R398 to R400, R409, R411): a heartbeat adds 1 to the module's word; the
holder declares failed a module whose word it finds unchanged HB_MISS times; a fenced module enters FAILED; the holder's
renewals keep the role, which it gives up when it meets a higher generation or lets the lease lapse; a standby takes the
role of a stale lease, any module that of a lost one; LEAVE and MODE act where the rules let them. -/
def Obligations.MembershipAndNest : Prop :=
  ∀ s : State, s.boot.failing = false → s.grid.idle = true →
    (∀ a, s.recov.hbStopped = false → s.recMode ≤ mdStandby → s.ready = true → s.replicas = [a] →
      Completes .heartbeat s fun t =>
        let w := a + Config.nestWord 0 s.modnum
        t.now = max s.now (s.recov.hbAt + s.hbPeriod) ∧ t.recov.hbAt = t.now ∧
        (∀ o, s.isOwn (gModule w) = true → placeOf (gOff w) = .hbm o → w % 8 = 0 → s.hbmPoisoned o 8 = false →
          t.recov = { s.recov with hbAt := t.now } ∧
          leNat (t.hbmRead o 8) = (leNat (s.hbmRead o 8) + 1) % 2 ^ 64 ∧
          (∀ b, ¬ (o ≤ b ∧ b < o + 8) → t.hbmByte b = s.hbmByte b) ∧
          s.same t [.now, .ptp, .recov, .hbm, .hold, .regs] ∧ s.sends t [])) ∧
    (∀ (m : ModNum) (w : W64) (k : Nat), s.holder = true → s.replicas = [] → s.recov.failedMods.contains m.toNat = false →
      (tfind m.toNat s.recov.hbSeen = some (w.toNat, k) → max 1 (s.gf F.REC_HEARTBEAT_HB_MISS) ≤ k + 1 →
        Completes (.heartbeatCheck [(m, w)] []) s fun t =>
          t.recov.failedMods = s.recov.failedMods ++ [m.toNat] ∧ t.gf F.REC_EVENTS_PEER_FAILED = 1 ∧
          t.rd (R.REC_COUNT 3) = BitVec.ofNat 64 (((s.rd (R.REC_COUNT 3)).toNat + 1) % 2 ^ 48) ∧
          t.rd (R.REC_COUNT 11) = BitVec.ofNat 64 (((s.rd (R.REC_COUNT 11)).toNat + 1) % 2 ^ 48) ∧
          s.regsBut t [R.REC_COUNT 3, R.REC_COUNT 11, R.REC_EVENTS, R.REC_EVENTS_REOCC] ∧
          s.same t [.now, .ptp, .recov, .regs] ∧ s.sends t []) ∧
      (∀ old, tfind m.toNat s.recov.hbSeen = some (old, k) → old ≠ w.toNat →
        Completes (.heartbeatCheck [(m, w)] []) s fun t =>
          t.recov.failedMods = s.recov.failedMods ∧ tfind m.toNat t.recov.hbSeen = some (w.toNat, 0) ∧
          s.same t [.now, .ptp, .recov] ∧ s.sends t [])) ∧
    (∀ (w : Fin 64) (v : W64),
      (s.modnum / 64 ≠ w.val ∨ v.toNat.testBit (s.modnum % 64) = false → Completes (.fenceWrite w v) s fun t =>
        t.rd (R.REC_FENCE w) = v ∧ s.regsBut t [R.REC_FENCE w] ∧ s.same t [.regs] ∧ s.sends t []) ∧
      (s.modnum / 64 = w.val → v.toNat.testBit (s.modnum % 64) = true → (List.range 16).all (fun p => !s.portOn p) = true →
        s.rig.ops = [] → Completes (.fenceWrite w v) s fun t =>
        t.rd (R.REC_FENCE w) = v ∧ t.modState = msFailed ∧ t.gf F.REC_EVENTS_FENCED = 1)) ∧
    (s.holder = true → s.replicas = [] →
      (Completes (.leaseRenew 0) s fun t =>
        let d := max s.now (s.recov.renewAt + leasePeriod)
        t.now = d ∧ t.holder = true ∧ t.recov.renewAt = d ∧ t.recov.leaseAt = d ∧
        t.recov.lease / 2 ^ 44 = s.recov.lease / 2 ^ 44 ∧ t.recov.lease % 2 ^ 12 = s.recov.lease % 2 ^ 12 ∧
        bits t.recov.lease 12 32 = (bits s.recov.lease 12 32 + 1) % 2 ^ 32 ∧
        s.same t [.now, .ptp, .recov] ∧ s.sends t []) ∧
      (Completes (.leaseRenew 2) s fun t =>
        t.holder = false ∧ s.regsBut t [R.REC_NEST_STATUS] ∧ s.same t [.now, .ptp, .regs] ∧ s.sends t []) ∧
      (Completes .leaseLapsed s fun t =>
        t.holder = false ∧ t.now = max s.now (s.recov.renewAt + leaseLimit + 32) ∧ s.regsBut t [R.REC_NEST_STATUS] ∧
        s.same t [.now, .ptp, .regs] ∧ s.sends t [])) ∧
    (s.holder = false → s.replicas = [] →
      let took (t : State) : Prop := t.holder = true ∧ t.flag F.REC_NEST_STATUS_STANDBY = false ∧
        t.recov.lease = (s.recov.lease / 2 ^ 44 + 1) % 2 ^ 20 * 2 ^ 44 + s.modnum ∧
        t.gf F.REC_EVENTS_NEST_TAKEOVER = 1 ∧
        t.rd (R.REC_COUNT 10) = BitVec.ofNat 64 (((s.rd (R.REC_COUNT 10)).toNat + 1) % 2 ^ 48) ∧
        s.regsBut t [R.REC_NEST_STATUS, R.REC_COUNT 10, R.REC_EVENTS, R.REC_EVENTS_REOCC] ∧
        s.same t [.now, .ptp, .recov, .regs] ∧ s.sends t []
      (∀ word : W64, word.toNat = s.recov.lease →
        s.recov.leaseAt + leaseStale ≤ max s.now (s.recov.leaseCheckAt + leasePeriod) →
        Completes (.leaseCheck word true) s took) ∧
      (∀ (word : W64) (appointed : Bool), word.toNat ≠ s.recov.lease → Completes (.leaseCheck word appointed) s fun t =>
        t.recov.lease = word.toNat ∧ t.recov.leaseAt = t.now ∧ t.holder = false ∧
        t.gf F.REC_NEST_STATUS_SEEN = word.toNat % 2 ^ 12 ∧ t.flag F.REC_NEST_STATUS_STANDBY = appointed ∧
        s.regsBut t [R.REC_NEST_STATUS] ∧ s.same t [.now, .ptp, .recov, .regs] ∧ s.sends t []) ∧
      (Completes .nestLost s fun t =>
        t.gf F.REC_EVENTS_NEST_LOST = 1 ∧ t.now = max s.now (s.recov.leaseAt + leaseLost) ∧
        s.regsBut t [R.REC_EVENTS, R.REC_EVENTS_REOCC] ∧ s.same t [.now, .ptp, .regs] ∧ s.sends t []) ∧
      (s.flag F.REC_EVENTS_NEST_LOST = true → Completes .take s took) ∧
      (s.flag F.REC_EVENTS_NEST_LOST = false → Completes .take s fun t => s.same t [] ∧ s.sends t [])) ∧
    (s.modState = msReady ∨ s.modState = msRetiring → Completes .leave s fun t =>
      t.modState = msLeaving ∧ t.recov.leaving = true ∧ s.regsBut t [R.MODULE_STATE] ∧
      s.same t [.recov, .boot, .regs] ∧ s.sends t []) ∧
    (s.modState ≠ msReady → s.modState ≠ msRetiring → Completes .leave s fun t => s.same t [] ∧ s.sends t []) ∧
    (∀ v : BitVec 2, s.recMode ≠ mdLeft → v.toNat ≤ 1 → Completes (.modeWrite v) s fun t =>
      t.recMode = v.toNat ∧ s.regsBut t [R.REC_CFG] ∧ s.same t [.regs] ∧ s.sends t []) ∧
    (∀ v : BitVec 2, s.recMode = mdLeft ∨ 1 < v.toNat → Completes (.modeWrite v) s fun t => s.same t [] ∧ s.sends t [])

/-- Epochs and re-maps (R388 to R393, R402 to R407, R409): the holder opens an epoch; at a checkpoint point the position
of the log is recorded and a JOB range copied to SNAP, or the epoch fails for want of room; the end of the copies is
notified; a commit makes the halves just written active and takes the recorded CUT, a waiting range and the admission
into force, and the serving epoch follows; an abandoned epoch leaves the halves; a table hold waits for its table's
pinned lines; a re-map ends dispatches ABORTED where it cannot go on, an adopter takes the work of its record over, and
the holder fences the failed module and reroutes its number. -/
def Obligations.EpochsAndRemaps : Prop :=
  ∀ s : State, s.boot.failing = false →
    (s.holder = true → s.recov.epochOpen = none → Completes .epochOpen s fun t =>
      t.recov = { s.recov with epochOpen := some ((s.gf F.REC_EPOCH_EPOCH + 1) % 2 ^ 64) } ∧ s.same t [.recov] ∧
      s.sends t []) ∧
    (s.recMode = mdActive → s.recov.checkpoint = none → s.atCheckpoint = true → s.modState ≠ msFailed →
      (s.checkpointFails = true → Completes (.checkpointPoint none) s fun t =>
        t.gf F.REC_EVENTS_EPOCH_FAILED = 1 ∧ s.regsBut t [R.REC_EVENTS, R.REC_EVENTS_REOCC] ∧ s.same t [.regs] ∧
        s.sends t []) ∧
      (s.checkpointFails = false → s.mranges = [] → Completes (.checkpointPoint none) s fun t =>
        t.recov = { s.recov with
          checkpoint := some { cut := s.gf F.REC_LOG_STATE_HEAD, bytes := 0, record := s.stateRecord } } ∧
        s.sends t [.stateRecord (gAddr (s.gf F.REC_BUDDY_BUDDY) (s.halfBase R.REC_MIRROR (1 - s.recov.half)))
          s.stateRecord] ∧ s.regsBut t (R.JOB_STATUS :: dieRegs) ∧
        s.same t [.recov, .regs]) ∧
      (∀ r w, s.checkpointFails = false → s.mranges = [r] → r.owner = some w → s.isOwn (s.gf F.REC_BUDDY_BUDDY) = false →
        Completes (.checkpointPoint none) s fun t =>
          let snap := s.halfBase R.REC_SNAP (1 - s.recov.half)
          (∃ c, t.recov.checkpoint = some c ∧ c.cut = s.gf F.REC_LOG_STATE_HEAD ∧ c.bytes = 2 * r.len ∧ c.done = false) ∧
          (∀ i, i < r.len → t.hbmByte (snap + i) = s.hbmByte (r.base + i)) ∧
          (∀ b, ¬ (snap ≤ b ∧ b < snap + r.len) → t.hbmByte b = s.hbmByte b) ∧
          s.same t [.recov, .rig, .regs, .hold, .hbm])) ∧
    (∀ c, s.recov.checkpoint = some c → c.done = false → c.failed = false → c.left = 0 → Completes .checkpointDone s fun t =>
      t.recov = { s.recov with checkpoint := some { c with done := true } } ∧
      t.rd (R.REC_COUNT 2) = BitVec.ofNat 64 (((s.rd (R.REC_COUNT 2)).toNat + c.bytes) % 2 ^ 48) ∧
      s.regsBut t ([R.REC_COUNT 2, R.JOB_STATUS] ++ dieRegs) ∧ s.same t [.recov, .regs] ∧
      s.sends t [.notify ((s.gf F.REC_EPOCH_EPOCH + 1) % 2 ^ 64)]) ∧
    (∀ (epoch : W64) (c : Checkpoint) (o : Nat) (v : W64), s.modState ≠ msFailed → s.recov.checkpoint = some c →
      c.handover = false → s.recov.rangeWait = [(o, v)] → (o = R.REC_RANGE_BASE 0 ∨ o = R.REC_RANGE_LEN 0) →
      s.recMode = mdStandby → s.recov.left = false → s.hly.ledger = [] → s.hly.upds = [] → s.recov.logs = [] →
      s.rig.ended = [] → s.gf F.REC_SERVE_EPOCH_EPOCH < epoch.toNat → Completes (.epochCommit epoch (some true)) s fun t =>
        t.rd R.REC_EPOCH = epoch ∧ t.gf F.REC_LOG_STATE_CUT = c.cut % 2 ^ 32 ∧ t.rd o = v ∧ t.recMode = mdActive ∧
        t.gf F.REC_SERVE_EPOCH_EPOCH = epoch.toNat ∧
        t.rd (R.REC_COUNT 0) = BitVec.ofNat 64 (((s.rd (R.REC_COUNT 0)).toNat + 1) % 2 ^ 48) ∧
        t.recov = { s.recov with
          checkpoint := none, saved := c.record, half := 1 - s.recov.half, rangeWait := [], serveWant := epoch.toNat
          epochOpen := none } ∧
        s.regsBut t ([R.REC_EPOCH, R.REC_LOG_STATE, o, R.REC_CFG, R.REC_SERVE_EPOCH, R.REC_COUNT 0, R.JOB_STATUS] ++
          dieRegs) ∧ s.same t [.recov, .regs] ∧ s.sends t []) ∧
    (s.modState ≠ msFailed → Completes .epochAbandoned s fun t =>
      t.recov = { s.recov with checkpoint := none, epochOpen := none } ∧ t.gf F.REC_EVENTS_EPOCH_FAILED = 1 ∧
      t.rd (R.REC_COUNT 1) = BitVec.ofNat 64 (((s.rd (R.REC_COUNT 1)).toNat + 1) % 2 ^ 48) ∧
      s.regsBut t ([R.REC_COUNT 1, R.REC_EVENTS, R.REC_EVENTS_REOCC, R.JOB_STATUS] ++ dieRegs) ∧
      s.same t [.recov, .regs] ∧ s.sends t []) ∧
    (∀ e, s.recov.left = false → s.gf F.REC_SERVE_EPOCH_EPOCH < s.recov.serveWant → s.recov.serveWant < 2 ^ 64 →
      s.oldestOpen = some e → Completes .serveEpochAdvance s fun t =>
        t.gf F.REC_SERVE_EPOCH_EPOCH = (if e < s.gf F.REC_SERVE_EPOCH_EPOCH then s.gf F.REC_SERVE_EPOCH_EPOCH
          else s.gf F.REC_SERVE_EPOCH_EPOCH + 1) ∧
        s.regsBut t [R.REC_SERVE_EPOCH] ∧ s.same t [.regs] ∧ s.sends t []) ∧
    (Completes .tableHold s fun t =>
      (∀ k, k < 16 → (t.gf F.REC_TABLE_HOLD_TABLES).testBit k =
        ((s.gf F.REC_TABLE_HOLD_TABLES).testBit k || (s.recov.holdWait.testBit k &&
          !(s.cut.lines.any fun e => decide (e.2.table = k) && e.2.pins != 0)))) ∧
      s.regsBut t [R.REC_TABLE_HOLD] ∧ s.same t [.recov, .regs] ∧ s.sends t []) ∧
    (∀ (f ward buddy : ModNum) (owners : List W32) (tables : BitVec 16) (writers members : List ModNum)
        (routes : List (ModNum × W64)) (logFrom : Option W32) (record : StateRecord) (rows : List (Nat × List Byte)),
      s.modState ≠ msFailed →
      (∀ d to_, s.job.cur = some d → (owners.map (·.toNat)).contains (planOwner d.image) = true → s.job.queue = [] →
        (to_ = none ∨ s.gf F.REC_EPOCH_EPOCH = 0) →
        Completes (.remap f to_ buddy ward owners tables writers members routes logFrom record rows) s fun t =>
          t.job.cur = none ∧ (t.mailbox d.mailbox).state = 2 ∧ (t.mailbox d.mailbox).outcome = ocmAborted ∧
          t.gf F.REC_EVENTS_RECOVERY_ABORTED = 1 ∧ s.same t [.job, .regs] ∧ s.sends t []) ∧
      (∀ to_ : ModNum, to_.toNat = s.modnum → s.holder = false → s.gf F.REC_EPOCH_EPOCH ≠ 0 →
        s.gf F.REC_BUDDY_WARD ≠ f.toNat → record.regs = [] → s.grid.dma = [] → s.rig.ended = [] → s.rig.waiting = [] →
        s.recov.logs = [] →
        Completes (.remap f (some to_) buddy ward [] tables writers members routes none record rows) s fun t =>
          t.recMode = mdActive ∧ t.job.plans = record.plans ∧ t.job.queue = record.queue ∧
          t.job.cur = record.cur.map Dispatch.rewound ∧ t.job.mail = record.mail ∧
          (s.gf F.REC_BUDDY_BUDDY = f.toNat → t.gf F.REC_EVENTS_WARD_UNPROTECTED = 1) ∧
          s.same t [.job, .rig, .regs] ∧ s.sends t []) ∧
      (∀ to_ : ModNum, s.holder = true → f.toNat ≠ s.modnum → to_.toNat ≠ s.modnum → s.gf F.REC_EPOCH_EPOCH ≠ 0 →
        s.fenced s.modnum = false → s.rig.ops = [] → s.grid.dma = [] → s.rig.ended = [] → s.rig.waiting = [] →
        s.recov.logs = [] → Completes (.remap f (some to_) buddy ward [] tables [] [] [] none record rows) s fun t =>
          t.fenced f.toNat = true ∧ t.rd (R.RIG_ROUTE f.toNat) = s.rd (R.RIG_ROUTE to_.toNat) ∧
          t.gf F.REC_EVENTS_REMAP_DONE = 1 ∧
          t.rd (R.REC_COUNT 4) = BitVec.ofNat 64 (((s.rd (R.REC_COUNT 4)).toNat + 1) % 2 ^ 48) ∧
          t.recov.failedMods = s.recov.failedMods.filter (· != f.toNat) ∧
          t.recov.epochOpen = some ((s.gf F.REC_EPOCH_EPOCH + 1) % 2 ^ 64)))

/-! ### Start, resets and the security engine -/

/-- The start and the resets (R424, R431, R435 to R455, R471, R474, R477, R478): each step of the start where its
conditions hold, the resets with the cause they leave, the watchdog and its third start, and what the security engine
does of itself. Sampled values, image copies and self-test results are operands. A command of the start given at another
step leaves everything alone (the model's choice, assumption log 34). -/
def Obligations.StartAndResets : Prop :=
  ∀ s : State, s.boot.failing = false →
    let idle (c : Instr) : Prop := Completes c s fun t => s.same t [] ∧ s.sends t []
    (s.pwr.vinUp = false → Completes .powerOn s fun t =>
      s.restarted t rcPowerOn 2 ∧ t.boot.wdtCount = 0 ∧ t.pwr.vinUp = true ∧ t.pwr.good = false ∧ t.pwr.latch = 0 ∧
      t.pwr.startFail = false) ∧
    (s.pwr.vinUp = true → idle .powerOn) ∧
    (s.step_ = 2 → s.pwr.latch = 0 → s.pwr.startFail = false → Completes .regulatorsGood s fun t =>
      t.gf F.BOOT_STATUS_STEP = 3 ∧ t.pwr = { s.pwr with good := true } ∧ s.regsBut t [R.BOOT_STATUS] ∧
      s.same t [.pwr, .regs] ∧ s.sends t []) ∧
    (s.step_ = 2 → s.grid.idle = true → Completes .regulatorStartFail s fun t =>
      s.restarted t s.boot.cause 0 ∧ t.pwr.startFail = true ∧ t.pwr.good = false ∧
      t.now = max s.now (s.pwr.chargeAt + s.msNet 50)) ∧
    (s.step_ = 3 → s.powered = true → s.boot.resetLow = false → Completes .rootPllLock s fun t =>
      t.gf F.BOOT_STATUS_STEP = 4 ∧ t.pwr.pcieUp = (!s.boot.perstLow && !s.pwr.pcieLost) ∧ t.pwr.sysLost = false ∧
      (s.pwr.smbAddr = none → t.pwr.smbAddr = some (0x58 + s.pwr.smbStrap.zeroExtend 7)) ∧
      s.regsBut t [R.BOOT_STATUS] ∧ s.same t [.pwr, .regs] ∧ s.sends t []) ∧
    (s.boot.resetLow = true → idle .rootPllLock) ∧
    (s.step_ = 4 → s.modState ≠ msFailed → Completes .romBoot s fun t =>
      t.gf F.BOOT_STATUS_STEP = 5 ∧ t.rd R.SERIAL = s.boot.fuse.serial ∧ t.gf F.FUSE_STATUS_FUSES_VALID = 1 ∧
      t.flag F.FUSE_STATUS_LINK_ENC = s.boot.fuse.linkEnc ∧ t.gf F.SEC_STATUS_ROOT_VALID = 1 ∧
      (∀ w, w < 6 → t.rd (R.SEC_ROOT_HASH w) = BitVec.ofNat 64 (beAt s.boot.fuse.rootHash (8 * w) 8)) ∧
      t.gf F.SEC_STATUS_RNG_OK = 1 ∧ t.flag F.SEC_STATUS_KEY_PRESENT = s.boot.fuse.idKey.isSome ∧
      (s.boot.fuse.svn < 128 → t.gf F.SEC_SVN_FUSED_SVN = s.boot.fuse.svn) ∧
      (s.boot.cause < 8 → t.gf F.BOOT_RESET_CAUSE_CAUSE = s.boot.cause) ∧
      (s.boot.cause = rcWatchdog → t.gf F.BOOT_EVENTS_WATCHDOG_START = 1) ∧
      (s.boot.cause = rcWatchdogMem → t.gf F.BOOT_EVENTS_WATCHDOG_START = 1 ∧ t.gf F.SEC_EVENTS_MGMT_UNCORR = 1) ∧
      t.boot = { s.boot with kickAt := s.now } ∧ s.same t [.boot, .regs] ∧ s.sends t []) ∧
    (∀ (a b : List Byte) (image : Option (List Byte)), s.step_ = 5 → s.modState ≠ msFailed → s.dark →
      let copy := match s.boot.tried with
        | [] => firstCopy (headerSeq a) (headerSeq b)
        | c :: _ => 1 - c
      let s0 := s.wrN R.BOOT_IMG_SEQ ((headerSeq b).getD 0 * 2 ^ 32 + (headerSeq a).getD 0)
      let result (t : State) : Nat := if copy = 0 then t.gf F.SEC_IMG_RESULT_COPY_A else t.gf F.SEC_IMG_RESULT_COPY_B
      let refused (res : Nat) (t : State) : Prop :=
        result t = res ∧ t.boot.tried = s.boot.tried ++ [copy] ∧ t.gf F.BOOT_STATUS_STEP = 5 ∧
        s.same t [.boot, .regs] ∧ s.sends t [] ∧
        (s.boot.tried = [] → t.gf F.SEC_EVENTS_IMG_FALLBACK = 1 ∧ t.modState = s.modState) ∧
        (s.boot.tried ≠ [] → t.modState = msFailed ∧ t.gf F.BOOT_STATUS_FAIL = bfNoImage)
      let regs := [R.BOOT_IMG_SEQ, R.SEC_IMG_RESULT, R.SEC_EVENTS, R.SEC_EVENTS_REOCC, R.BOOT_STATUS, R.MODULE_STATE]
      Completes (.imageCopyTried a b image) s fun t =>
        match image with
        | none => refused 2 t ∧ s.regsBut t regs
        | some im =>
          if s.verifyImage im ≠ 1 then refused (s.verifyImage im) t ∧ s.regsBut t regs
          else match (s0.sf F.SEC_STATUS_IMAGE_VERIFIED 1).checkImage im with
            | .inl (r, e) =>
              refused 7 t ∧ t.gf F.BOOT_REFUSE_REC_COPY = copy ∧ (r < 1024 → t.gf F.BOOT_REFUSE_REC_RECORD = r) ∧
              (r < 1024 → e < 2 ^ 32 → t.gf F.BOOT_REFUSE_REC_ENTRY = e) ∧ t.gf F.BOOT_EVENTS_REFUSED = 1
            | .inr _ =>
              t.modState = msInitialising ∧ t.gf F.BOOT_STATUS_STEP = 6 ∧ result t = 1 ∧
              t.gf F.SEC_STATUS_IMAGE_COPY = copy ∧ t.boot.firmware = true ∧ t.boot.kickAt = s.now) ∧
    (∀ samples : List (List (Vector Byte 6)), s.step_ = 6 → s.modState ≠ msFailed →
      let v0 := (List.range 6).map fun r => s.gf (F.AGE_RAIL_V_START_MV r)
      let tried (n : Nat) : List (Vector Byte 6) := samples.getD (n - 80) []
      let passes (n : Nat) : Bool := s.marginOk (tried n) (s.tryN (tried n) v0) (s.gf F.AGE_CFG_START_GUARD)
      ∀ n, 80 ≤ n → n ≤ s.nCap → (passes n = true ∨ n = 80) → (∀ m, n < m → m ≤ s.nCap → passes m = false) →
        Completes (.startPlanner samples) s fun t =>
          t.gf F.CLK_STATUS_N = n ∧ t.gf F.CLK_STATUS_ROOT_MHZ = 50 * n ∧ t.gf F.BOOT_STATUS_STEP = 7 ∧ t.grid = {} ∧
          (∀ r, r < 6 → t.gf (F.AGE_RAIL_V_MV r) = (s.tryN (tried n) v0).getD r 0)) ∧
    (∀ (rows : List (W32 × List Byte)) (faulted : List W32), s.step_ = 7 → s.modState ≠ msFailed →
      let got (site : Nat) : List Byte := ((rows.find? fun x => x.1.toNat = site).map (·.2)).getD []
      let good (e : Nat × Nat) : Bool :=
        decide (crc32c (slice (got e.1) 0 (if isM (siteField e.1) then 896 else 1024)) = e.2) &&
          !(faulted.any fun f => f.toNat = e.1)
      (s.boot.selfSites.all good = true → Completes (.selftest rows faulted) s fun t =>
        t.gf F.BOOT_STATUS_STEP = 8 ∧ t.grid = {} ∧ s.regsBut t [R.BOOT_STATUS] ∧ s.same t [.grid, .regs] ∧
        s.sends t []) ∧
      (s.boot.selfSites.all good = false → s.dark → Completes (.selftest rows faulted) s fun t =>
        t.modState = msFailed ∧ t.gf F.BOOT_STATUS_FAIL = bfSelftest ∧ t.gf F.BOOT_STATUS_STEP = 7 ∧
        s.same t [.boot, .grid, .regs] ∧ s.sends t [])) ∧
    (∀ ok : BitVec 8, s.step_ = 8 → s.modState ≠ msFailed →
      (ok.toNat ≠ 255 → s.dark → Completes (.hbmTraining ok) s fun t =>
        t.modState = msFailed ∧ t.gf F.BOOT_STATUS_FAIL = bfHbm ∧
        (∀ k, k < 8 → ok.toNat.testBit k = true → t.gf (F.MEM_HBM_STATUS_TRAINED (k / 2) (k % 2)) = 1) ∧
        s.same t [.boot, .regs] ∧ s.sends t []) ∧
      (ok.toNat = 255 → s.rngOk = true → s.boot.models = [] → Completes (.hbmTraining ok) s fun t =>
        t.modState = msLinking ∧ t.gf F.BOOT_STATUS_STEP = 9 ∧ (∀ a, t.hbmByte a = 0) ∧
        (∀ k, k < 8 → t.gf (F.MEM_HBM_STATUS_TRAINED (k / 2) (k % 2)) = 1) ∧
        t.rd R.HLY_BOOT_NONCE = BitVec.ofNat 64 (Config.random s.freeCtr % 2 ^ 64) ∧ t.freeCtr = s.freeCtr + 1 ∧
        (∀ n, n < 32 → t.linkState n = if s.gf (F.RIGP_CFG_ROLE n) ≠ 0 ∧ (s.linkState n = lsOff ∨ s.linkState n = lsDown)
          then lsTraining else s.linkState n)) ∧
      (ok.toNat = 255 → s.rngOk = false → Completes (.hbmTraining ok) s fun t =>
        t.modState = s.modState ∧ t.gf F.BOOT_STATUS_STEP = 8 ∧ (∀ a, t.hbmByte a = 0))) ∧
    (s.grid.idle = true → s.modState = msLinking →
      (∀ inUse : Bool, (s.allUp = true ∨ s.enoughUp = true) → Completes (.ready inUse false) s fun t =>
        let due := if s.allUp then s.now else max s.now (s.boot.stateAt + s.linkWait)
        t.modState = (if s.boot.retiring then msRetiring else msReady) ∧ t.gf F.BOOT_STATUS_STEP = 11 ∧
        t.recMode = mdStandby ∧ t.now = (due + 31) / 32 * 32 ∧ t.boot.readyAt = some t.now ∧ t.boot.wdtCount = 0 ∧
        (inUse = true → t.gf F.REC_EVENTS_NUMBER_IN_USE = 1) ∧
        s.regsBut t [R.MODULE_STATE, R.BOOT_STATUS, R.BOOT_TIMES, R.REC_CFG, R.REC_EVENTS, R.REC_EVENTS_REOCC] ∧
        s.same t [.now, .ptp, .boot, .recov, .pwr, .regs] ∧ s.sends t []) ∧
      (s.allUp = false → s.enoughUp = false → ∀ inUse first : Bool, idle (.ready inUse first)) ∧
      (s.enoughUp = false → Completes .linkWaitExpired s fun t =>
        t.now = max s.now (s.boot.stateAt + s.linkWait) ∧ t.gf F.BOOT_EVENTS_LINK_WAIT_EXPIRED = 1 ∧
        s.regsBut t [R.BOOT_EVENTS, R.BOOT_EVENTS_REOCC] ∧ s.same t [.now, .ptp, .regs] ∧ s.sends t []) ∧
      (s.enoughUp = true → Completes .linkWaitExpired s fun t =>
        t.now = max s.now (s.boot.stateAt + s.linkWait) ∧ s.same t [.now, .ptp] ∧ s.sends t [])) ∧
    (s.step_ < 3 → Completes .resetPin s fun t =>
      t.boot = { s.boot with resetLow := true } ∧ s.same t [.boot] ∧ s.sends t []) ∧
    (Completes .resetNReleased s fun t =>
      t.boot = { s.boot with resetLow := false } ∧ s.same t [.boot] ∧ s.sends t []) ∧
    (s.powered = true → 3 < s.step_ →
      (Completes .resetPin s fun t => State.restarted { s with boot := { s.boot with resetLow := true } } t rcPin 3) ∧
      (Completes .restart s fun t => s.restarted t rcSoft 3) ∧
      (s.flag F.BOOT_START_CFG_HOST_RESTART = true → Completes .hostReset s fun t => s.restarted t rcHost 3) ∧
      (s.flag F.BOOT_START_CFG_HOST_RESTART = false → Completes .hostReset s fun t =>
        t.irq.masked = 2 ^ 64 - 1 ∧ t.irq.funcMask = false ∧ s.same t [.masks] ∧ s.sends t [])) ∧
    (s.powered = true → s.step_ = 3 →
      (Completes .resetPin s fun t =>
        State.restarted { s with boot := { s.boot with resetLow := true } } t (min s.boot.cause rcPin) 3) ∧
      (Completes .restart s fun t => s.restarted t (min s.boot.cause rcSoft) 3)) ∧
    (∀ low : Bool, Completes (.perst low) s fun t =>
      t.boot = { s.boot with perstLow := low } ∧ t.pwr.pcieUp = (!low && !s.pwr.pcieLost && decide (4 ≤ s.step_)) ∧
      (low = true → t.irq.masked = 2 ^ 64 - 1) ∧ s.same t [.boot, .pwr, .masks] ∧ s.sends t []) ∧
    (∀ v : W32, Completes (.wdtKick v) s fun t =>
      t.boot = (if v = 0x4B49434B then { s.boot with kickAt := s.now } else s.boot) ∧ s.same t [.boot] ∧ s.sends t []) ∧
    (5 ≤ s.step_ → s.powered = true → s.grid.idle = true →
      let cause := if s.boot.coreStopped then rcWatchdogMem else rcWatchdog
      (s.boot.wdtCount < 2 → Completes .watchdogExpired s fun t =>
        s.restarted t cause 3 ∧ t.boot.wdtCount = s.boot.wdtCount + 1 ∧ t.now = max s.now (s.boot.kickAt + s.wdtPeriod)) ∧
      (2 ≤ s.boot.wdtCount → Completes .watchdogExpired s fun t =>
        t.modState = msFailed ∧ t.gf F.BOOT_STATUS_FAIL = bfWatchdog ∧ t.boot.cause = cause)) ∧
    (∀ v : W32,
      (v = 0x53564E21 → s.modState = msReady → s.boot.fuse.svn < s.gf F.SEC_SVN_IMAGE_SVN → Completes (.svnAdvance v) s
        fun t => t.gf F.SEC_SVN_FUSED_SVN = s.gf F.SEC_SVN_IMAGE_SVN ∧ t.boot.fuse.svn = s.gf F.SEC_SVN_IMAGE_SVN ∧
          s.regsBut t [R.SEC_SVN] ∧ s.same t [.boot, .regs] ∧ s.sends t []) ∧
      (v ≠ 0x53564E21 ∨ s.modState ≠ msReady ∨ s.gf F.SEC_SVN_IMAGE_SVN ≤ s.boot.fuse.svn → idle (.svnAdvance v))) ∧
    (s.rngOk = true → Completes .rngHealthFail s fun t =>
      t.rngOk = false ∧ t.gf F.SEC_EVENTS_RNG_FAIL = 1 ∧
      s.regsBut t [R.SEC_STATUS, R.SEC_EVENTS, R.SEC_EVENTS_REOCC] ∧ s.same t [.regs] ∧ s.sends t []) ∧
    (Completes .mgmtCoreMemoryError s fun t =>
      t.gf F.SEC_EVENTS_MGMT_UNCORR = 1 ∧ t.boot = { s.boot with coreStopped := true } ∧
      s.regsBut t [R.SEC_EVENTS, R.SEC_EVENTS_REOCC] ∧ s.same t [.boot, .regs] ∧ s.sends t [])

/-! ### Ageing, power, heat, clocks -/

/-- Ageing, power, heat, the input and the reference clocks (R245, R385, R456 to R469, R471, R473, R474, R476): a monitor
sample, the planner's step on a rail, the reef and its glide, the power and current loops, the stacks' reports, the
latched shutdowns with the cause that stands, and the loss of each reference clock. What a sensor reads is an operand. -/
def Obligations.AgeingPowerAndClocks : Prop :=
  ∀ s : State, s.boot.failing = false → s.grid.idle = true →
    let tick := (s.now / 32 + 1) * 32
    (∀ (sl ss temp : Byte) (ro : BitVec 20) (vin iin : BitVec 16),
      Completes (.monitorSample sl ss temp ro vin iin) s fun t =>
        let b := s.pwr.monNext % 104
        t.now = tick ∧ t.gf (F.AGE_MON_SLACK_L b) = sl.toNat ∧ t.gf (F.AGE_MON_SLACK_S b) = ss.toNat ∧
        t.gf (F.AGE_MON_TEMP b) = temp.toNat ∧ t.gf (F.AGE_MON_RO_COUNT b) = ro.toNat ∧
        t.gf F.PWR_STATUS_V_IN_CV = vin.toNat ∧ t.gf F.PWR_STATUS_I_IN_DA = iin.toNat ∧ t.pwr.monNext = (b + 1) % 104 ∧
        (∀ k, k < 104 → sgn 8 (t.gf (F.AGE_MON_TEMP k)) ≤ sgn 8 (t.gf F.PWR_THERM_STATUS_T_BLOCK_C)) ∧
        (∃ k, k < 104 ∧ t.gf F.PWR_THERM_STATUS_HOT_BLOCK = k ∧
          t.gf (F.AGE_MON_TEMP k) = t.gf F.PWR_THERM_STATUS_T_BLOCK_C) ∧
        (sgn 8 (s.gf (F.AGE_MON_TEMP b)) ≤ (s.tWarn : Int) → (s.tWarn : Int) < sgn 8 temp.toNat →
          t.gf F.PWR_EVENTS_THERM_WARN = 1) ∧
        s.regsBut t [R.AGE_MON b, R.PWR_THERM_STATUS, R.PWR_STATUS, R.PWR_EVENTS, R.PWR_EVENTS_REOCC] ∧
        s.same t [.now, .ptp, .pwr, .regs] ∧ s.sends t []) ∧
    (msReady ≤ s.modState →
      let due := max s.now (s.pwr.periodAt + s.msNet (max 1 (s.gf F.AGE_CFG_PLAN_PERIOD_MS)))
      (∀ r w, r < 6 → s.pwr.worst = [(r, w)] →
        let v := s.gf (F.AGE_RAIL_V_MV r)
        let n := s.gf F.AGE_LOG_IDX_COUNT
        (w < (s.gf F.AGE_CFG_MARGIN_TARGET : Int) → v < s.vMax r → s.pwr.glide = none → Completes .plannerPeriod s fun t =>
          t.gf (F.AGE_RAIL_V_MV r) = min (v + 5) (s.vMax r) ∧ t.gf F.AGE_EVENTS_VSTEP = 1 ∧
          t.gf F.AGE_LOG_IDX_COUNT = (n + 1) % 2 ^ 32 ∧ t.gf (F.AGE_LOG_KIND (n % 64)) = akVstep ∧
          t.gf (F.AGE_LOG_RAIL (n % 64)) = r ∧ t.gf (F.AGE_LOG_V_MV (n % 64)) = min (v + 5) (s.vMax r) ∧
          t.now = due ∧ t.pwr = { s.pwr with worst := [], periodAt := due } ∧
          s.regsBut t [R.AGE_RAIL r, R.AGE_LOG (n % 64), R.AGE_LOG_IDX, R.AGE_EVENTS, R.AGE_EVENTS_REOCC] ∧
          s.same t [.now, .ptp, .pwr, .regs] ∧ s.sends t []) ∧
        (w < (s.gf F.AGE_CFG_MARGIN_TARGET : Int) → v = s.vMax r → Completes .plannerPeriod s fun t =>
          t.gf F.AGE_EVENTS_HEADROOM_OUT = 1 ∧ t.now = due ∧ t.pwr = { s.pwr with worst := [], periodAt := due } ∧
          (80 < s.divN → t.gf F.CLK_STATUS_REEF_PENDING = 1 ∧
            s.regsBut t [R.CLK_STATUS, R.AGE_EVENTS, R.AGE_EVENTS_REOCC] ∧ s.same t [.now, .ptp, .pwr, .regs]) ∧
          (s.divN ≤ 80 → s.modState = msReady → t.modState = msRetiring ∧ t.gf F.AGE_EVENTS_RETIRE = 1 ∧
            t.gf (F.AGE_LOG_KIND (n % 64)) = akRetire) ∧ s.sends t []) ∧
        ((s.gf F.AGE_CFG_MARGIN_TARGET : Int) ≤ w → Completes .plannerPeriod s fun t =>
          t.now = due ∧ t.pwr = { s.pwr with worst := [], periodAt := due } ∧ s.same t [.now, .ptp, .pwr] ∧
          s.sends t []))) ∧
    (s.flag F.CLK_STATUS_REEF_PENDING = true → s.pwr.glide = none → Completes .reefGlide s fun t =>
      t.gf F.CLK_STATUS_GLIDING = 1 ∧ t.pwr = { s.pwr with glide := some (s.divN - 1, s.now + 32 * 2000) } ∧
      s.regsBut t [R.CLK_STATUS] ∧ s.same t [.pwr, .regs] ∧ s.sends t []) ∧
    (∀ n due, s.pwr.glide = some (n, due) → 80 ≤ n → n ≤ 96 → Completes .glideDone s fun t =>
      t.gf F.CLK_STATUS_N = n ∧ t.gf F.CLK_STATUS_ROOT_MHZ = 50 * n ∧ t.gf F.CLK_STATUS_GLIDING = 0 ∧
      t.gf F.CLK_STATUS_REEF_PENDING = 0 ∧ t.gf F.AGE_EVENTS_REEF_DONE = 1 ∧
      t.gf F.CLK_RATES_SERVE_BOUND_PS = cdiv 3840000 n ∧ t.gf F.CLK_RATES_OFFLOAD_BOUND_PS = cdiv 38400000 n ∧
      t.gf (F.AGE_LOG_KIND (s.gf F.AGE_LOG_IDX_COUNT % 64)) = akReef ∧ t.pwr = { s.pwr with glide := none } ∧
      t.now = max s.now due ∧ s.same t [.now, .ptp, .pwr, .regs] ∧ s.sends t []) ∧
    (∀ (watts : BitVec 16) (reg : Byte), Completes (.powerLoop watts reg) s fun t =>
      let warm := decide ((s.tWarn : Int) < sgn 8 (s.gf F.PWR_THERM_STATUS_T_BLOCK_C)) ||
        decide (90 < s.gf F.PWR_THERM_STATUS_T_HBM_C) || decide (115 < reg.toNat)
      let excess := decide (s.powerLimit < watts.toNat)
      let was := s.gf F.PWR_STATUS_THROTTLE
      t.gf F.PWR_STATUS_P_IN_W = watts.toNat ∧ t.gf F.PWR_THERM_STATUS_T_REG_C = reg.toNat ∧
      t.gf F.PWR_STATUS_THROTTLE = (if excess || warm then min 12 (was + 1)
        else if watts.toNat * 100 < 95 * s.powerLimit then was - 1 else was) ∧
      t.rd (R.PWR_COUNT 1) = (if excess then BitVec.ofNat 64 (((s.rd (R.PWR_COUNT 1)).toNat + 1) % 2 ^ 48)
        else s.rd (R.PWR_COUNT 1)) ∧
      t.rd (R.PWR_COUNT 3) = (if warm then BitVec.ofNat 64 (((s.rd (R.PWR_COUNT 3)).toNat + 1) % 2 ^ 48)
        else s.rd (R.PWR_COUNT 3)) ∧
      (excess = true → t.gf F.PWR_EVENTS_POWER_LIMIT = 1) ∧ t.now = max s.now (s.pwr.loopAt + s.msNet 1) ∧
      s.regsBut t [R.PWR_STATUS, R.PWR_THERM_STATUS, R.PWR_COUNT 1, R.PWR_COUNT 3, R.PWR_EVENTS, R.PWR_EVENTS_REOCC] ∧
      s.same t [.now, .ptp, .pwr, .regs] ∧ s.sends t []) ∧
    (∀ iin : BitVec 16,
      (10 * s.currentLimit < iin.toNat → Completes (.currentLimit iin) s fun t =>
        t.gf F.PWR_STATUS_THROTTLE = 12 ∧ t.gf F.PWR_STATUS_I_IN_DA = iin.toNat ∧ t.gf F.PWR_EVENTS_CURRENT_LIMIT = 1 ∧
        t.rd (R.PWR_COUNT 2) = BitVec.ofNat 64 (((s.rd (R.PWR_COUNT 2)).toNat + 1) % 2 ^ 48) ∧ t.now = tick ∧
        s.regsBut t [R.PWR_STATUS, R.PWR_COUNT 2, R.PWR_EVENTS, R.PWR_EVENTS_REOCC] ∧ s.same t [.now, .ptp, .pwr, .regs] ∧
        s.sends t []) ∧
      (iin.toNat ≤ 10 * s.currentLimit → Completes (.currentLimit iin) s fun t => s.same t [] ∧ s.sends t [])) ∧
    (∀ (k : Fin 8) (temp : Byte), Completes (.hbmTemperatureReport k temp) s fun t =>
      t.gf (F.MEM_HBM_STATUS_TEMP (k / 2) (k % 2)) = temp.toNat ∧
      (t.flag (F.MEM_HBM_STATUS_REFRESH_2X (k / 2) (k % 2)) = true ↔ 85 < temp.toNat) ∧
      (∀ i, i < 8 → t.gf (F.MEM_HBM_STATUS_TEMP (i / 2) (i % 2)) ≤ t.gf F.PWR_THERM_STATUS_T_HBM_C) ∧
      (s.gf (F.MEM_HBM_STATUS_TEMP (k / 2) (k % 2)) ≤ 90 → 90 < temp.toNat → t.gf F.PWR_EVENTS_HBM_HOT = 1) ∧
      s.regsBut t [R.MEM_HBM_STATUS (k / 2) (k % 2), R.PWR_THERM_STATUS, R.PWR_EVENTS, R.PWR_EVENTS_REOCC] ∧
      s.same t [.regs] ∧ s.sends t []) ∧
    (∀ (k : Fin 8) (lost : Bool),
      (s.ready = false → Completes (.hbmStackFailed k lost) s fun t =>
        (lost = true → t.gf (F.MEM_HBM_STATUS_TRAINED (k / 2) (k % 2)) = 0) ∧
        s.regsBut t (if lost then [R.MEM_HBM_STATUS (k / 2) (k % 2)] else []) ∧ s.same t [.regs] ∧ s.sends t []) ∧
      (s.ready = true → (List.range 16).all (fun p => !s.portOn p) = true → s.rig.ops = [] →
        Completes (.hbmStackFailed k lost) s fun t => t.modState = msFailed ∧ t.recov.hbStopped = true ∧
          (lost = true → t.gf (F.MEM_HBM_STATUS_TRAINED (k / 2) (k % 2)) = 0))) ∧
    (Completes .inputRemoved s fun t =>
      s.restarted t s.boot.cause 0 ∧ t.pwr.vinUp = false ∧ t.pwr.latch = 0 ∧ t.pwr.startFail = false ∧
      t.pwr.good = false) ∧
    (s.pwr.vinUp = true → s.pwr.latch = 0 →
      (Completes .thermalTrip s fun t => s.shutDown t 1) ∧ (Completes .overcurrent s fun t => s.shutDown t 2) ∧
      (Completes .overvoltage s fun t => s.shutDown t 3)) ∧
    (s.pwr.vinUp = true → s.pwr.latch ≠ 0 →
      let later (code : Nat) : Nat :=
        if s.pwr.latchAt / (25 * s.divN) = s.now / (25 * s.divN) then max s.pwr.latch code else s.pwr.latch
      (Completes .thermalTrip s fun t => s.shutDown t (later 1)) ∧
      (Completes .overcurrent s fun t => s.shutDown t (later 2)) ∧
      (Completes .overvoltage s fun t => s.shutDown t (later 3))) ∧
    (s.step_ ≤ 3 → Completes .sysRefclkLost s fun t =>
      t.pwr = { s.pwr with sysLost := true } ∧ s.same t [.pwr] ∧ s.sends t []) ∧
    (3 < s.step_ → s.modState ≠ msFailed → (List.range 16).all (fun p => !s.portOn p) = true → s.rig.ops = [] →
      Completes .sysRefclkLost s fun t => t.modState = msFailed ∧ t.recov.hbStopped = true) ∧
    ((List.range 16).all (fun p => !s.portOn p) = true → (∀ n, n < 32 → s.linkState n ≠ lsUp) →
      Completes .serdesRefclkLost s fun t =>
        t.pwr = { s.pwr with serdesLost := true } ∧
        (∀ n, n < 32 → t.linkState n = if s.linkState n = lsTraining ∨ s.linkState n = lsAttesting then lsDown
          else s.linkState n) ∧ s.same t [.pwr, .rig, .regs] ∧ s.sends t []) ∧
    (∀ p : Fin 16, s.portOn p = true → (∀ q, q < 16 → q ≠ p.val → s.portOn q = false) → s.quietPort p →
      (∀ n, n < 32 → s.linkState n = lsOff) → s.linkUp p = true → Completes .serdesRefclkLost s fun t =>
        t.linkUp p = false ∧ t.gf (F.ETH_PORT_EVENTS_LINK_DOWN p) = 1 ∧ s.same t [.pwr, .eth, .regs] ∧ s.sends t []) ∧
    (msLinking ≤ s.modState → s.startFailed = false → Completes .serdesRefclkReturned s fun t =>
      t.pwr = { s.pwr with serdesLost := false } ∧
      (∀ n, n < 32 → t.linkState n = if s.gf (F.RIGP_CFG_ROLE n) ≠ 0 ∧ (s.linkState n = lsOff ∨ s.linkState n = lsDown)
        then lsTraining else s.linkState n) ∧ s.same t [.pwr, .rig, .regs] ∧ s.sends t []) ∧
    (Completes .pcieRefclkLost s fun t =>
      t.pwr = { s.pwr with pcieLost := true, pcieUp := false } ∧ s.same t [.pwr] ∧ s.sends t [])


/-! ### The control space, interrupts, SMBus and test port -/

/-- The control space and its ways in (R6, R7, R33, R36, R418, R479, R480, R485, R486, R492, R496): a permitted write
changes a register bit by bit as its access type says, a refused one is recorded and answered with an error completion;
a clear that meets a set of its CK_MGMT cycle, or comes before it, leaves the bit 1, and the re-occurrence counter counts
once in a cycle (assumption log 4: which sets and clears share a cycle); a vector still asserted after a clear is sent again; unmasking
a pending vector sends its message; a PCI Express read of a register returns its bytes, and a TLP whose ECRC fails is
counted and dropped; an SMBus read returns the register at the offset and moves on; the test port samples, and drives only in BOOTING and
FAILED. The registers named are those of the CLK, AGE and PWR block and of GLOBAL, whose tables give their reads and
writes no other effect. -/
def Obligations.ControlSpace : Prop :=
  ∀ s : State, s.boot.failing = false → s.grid.idle = true →
    (∀ (src : Src) (off : BitVec 28) (data : List Byte),
      (∀ r, s.ctlRefused src off.toNat true = none → (off.toNat < 0x100000 ∨ 0x300000 ≤ off.toNat ∧ off.toNat < 0x400000) →
        findReg off.toNat = some r → r.width = 8 * data.length → Completes (.registerWrite src off data) s fun t =>
          (∀ i, i < 64 → (t.rd off.toNat).getLsbD i =
            if r.rw.testBit i then (leNat data).testBit i
            else if r.w1s.testBit i then (s.rd off.toNat).getLsbD i || (leNat data).testBit i
            else if r.w1c.testBit i then
              (s.rd off.toNat).getLsbD i && (!(leNat data).testBit i ||
                ((s.evCycle off.toNat).hw ||| (s.evCycle off.toNat).late).getLsbD i)
            else (s.rd off.toNat).getLsbD i) ∧
          s.regsBut t (off.toNat :: (if r.w1c = 0 then [] else (reoccOf off.toNat).toList) ++ R.JOB_STATUS :: dieRegs) ∧
          s.same t [.regs] ∧ s.sends t []) ∧
      (∀ c, s.ctlRefused src off.toNat true = some c → Completes (.registerWrite src off data) s fun t =>
        t.rd R.DECODE_ERR = s.rd R.DECODE_ERR ||| BitVec.ofNat 64 (2 ^ c) ∧
        t.rd R.DECODE_ERR_COUNT = BitVec.ofNat 64 (((s.rd R.DECODE_ERR_COUNT).toNat + 1) % 2 ^ 32) ∧
        (s.rd R.DECODE_ERR = 0 → t.gf F.DECODE_ERR_ADDR_SOURCE = srcCode src ∧
          t.gf F.DECODE_ERR_ADDR_ADDRESS = gAddr s.modnum (0xF0000000000 + off.toNat) % 2 ^ 56) ∧
        (s.rd R.DECODE_ERR ≠ 0 → t.rd R.DECODE_ERR_ADDR = s.rd R.DECODE_ERR_ADDR) ∧
        s.regsBut t ([R.DECODE_ERR, R.DECODE_ERR_ADDR, R.DECODE_ERR_COUNT, R.RIG_EVENTS, R.RIG_EVENTS_REOCC, R.RIG_COUNT 9,
          R.JOB_STATUS] ++ dieRegs) ∧ s.same t [.regs] ∧ s.sends t [.completion (srcCode src) stDenied []])) ∧
    (∀ (off : BitVec 28) (v hw : W64) (r : RegDesc), findReg off.toNat = some r → canonOff off.toNat = off.toNat →
      r.w1c ≠ 0 → ¬ (0x800000 ≤ off.toNat ∧ off.toNat < 0xC00000) → isRigPortEvents off.toNat = false →
      Completes (.eventsClear off v hw) s fun t =>
        let old := s.rd off.toNat
        let w := v &&& BitVec.ofNat 64 r.w1c
        let h := hw &&& BitVec.ofNat 64 r.w1c
        let e := s.evCycle off.toNat
        let e' : EvCycle := { e with wrote := e.wrote ||| w, hw := e.hw ||| h }
        t.rd off.toNat = (old &&& ~~~ w) ||| (old &&& (e.hw ||| e.late)) ||| h ∧
        (∀ c, reoccOf off.toNat = some c → t.rd c =
          if e'.reoccs = e.reoccs then s.rd c
          else BitVec.ofNat 64 (((s.rd c).toNat + (2 ^ 32 + e'.reoccs - e.reoccs)) % 2 ^ 32)) ∧
        t.evCycle off.toNat = e' ∧
        (∀ o, o ≠ off.toNat → reoccOf off.toNat ≠ some o → t.evCycle o = s.evCycle o) ∧
        (∃ vs : List Nat, t.out = vs.map Out.msix ++ s.out ∧
          ∀ k, k < 64 → s.irq.funcMask = false → s.irq.masked.testBit k = false →
            (k ∈ vs ↔ t.irq.asserted.testBit k = true ∧
              (s.irq.asserted.testBit k = false ∨ (vectorsOf off.toNat).testBit k = true))) ∧
        s.regsBut t (off.toNat :: (reoccOf off.toNat).toList) ∧ s.same t [.regs]) ∧
    (∀ k : Fin 64, s.irq.funcMask = false → s.irq.asserted = s.vectors → Completes (.msixUnmask (some k)) s fun t =>
      t.irq.masked = s.irq.masked &&& (2 ^ 64 - 1 - 2 ^ k.val) ∧
      ((∀ i, i < 64 → i ≠ k.val → s.irq.masked.testBit i = false → s.irq.pending.testBit i = false) →
        t.out = (if s.irq.pending.testBit k.val && s.irq.asserted.testBit k.val then [Out.msix k] else []) ++ s.out ∧
        (s.irq.asserted.testBit k.val = true → t.irq.pending.testBit k.val = false)) ∧
      s.same t [.masks] ∧ s.sends t []) ∧
    (Completes (.msixUnmask none) s fun t => t.irq.funcMask = false ∧ t.irq.masked = s.irq.masked ∧ s.same t [.masks] ∧
      s.sends t []) ∧
    (s.pwr.pcieUp = true →
      (∀ (kind : Fin 3) (ep : Bool) (off : BitVec 28) (be : List Bool) (data : List Byte),
        Completes (.pcieTlpReceived kind true ep off be data) s fun t =>
          t.rd (R.SEC_COUNT 6) = BitVec.ofNat 64 (((s.rd (R.SEC_COUNT 6)).toNat + 1) % 2 ^ 48) ∧
          t.gf F.SEC_EVENTS_PCIE_INTEGRITY = 1 ∧
          s.regsBut t ([R.SEC_COUNT 6, R.SEC_EVENTS, R.SEC_EVENTS_REOCC, R.JOB_STATUS] ++ dieRegs) ∧ s.same t [.regs] ∧
          s.sends t []) ∧
      (∀ (off : BitVec 28) (be : List Bool) (data : List Byte), Completes (.pcieTlpReceived 0 false true off be data) s
        fun t => t.rd (R.SEC_COUNT 7) = BitVec.ofNat 64 (((s.rd (R.SEC_COUNT 7)).toNat + 1) % 2 ^ 48) ∧
          t.gf F.SEC_EVENTS_PCIE_INTEGRITY = 1 ∧
          s.regsBut t ([R.SEC_COUNT 7, R.SEC_EVENTS, R.SEC_EVENTS_REOCC, R.JOB_STATUS] ++ dieRegs) ∧ s.same t [.regs] ∧
          s.sends t []) ∧
      (∀ off : BitVec 28, 0x300000 ≤ off.toNat → off.toNat < 0x400000 → ctlWidth off.toNat = 4 →
        Completes (.pcieTlpReceived 1 false false off [true, true, true, true] []) s fun t =>
          s.sends t [.completion 1 stOk (leBytes 4 (s.rd off.toNat).toNat)] ∧
          s.regsBut t (R.JOB_STATUS :: dieRegs) ∧ s.same t [.regs]) ∧
      (∀ (off : BitVec 28) (data : List Byte) (r : RegDesc), 0x300000 ≤ off.toNat → off.toNat < 0x400000 →
        findReg off.toNat = some r → r.width = 32 → r.w1c = 0 → r.w1s = 0 → data.length = 4 →
        Completes (.pcieTlpReceived 0 false false off [true, true, true, true] data) s fun t =>
          (∀ i, i < 64 → (t.rd off.toNat).getLsbD i =
            if r.rw.testBit i then (leNat data).testBit i else (s.rd off.toNat).getLsbD i) ∧
          s.regsBut t ([off.toNat, R.JOB_STATUS] ++ dieRegs) ∧ s.same t [.regs] ∧ s.sends t [])) ∧
    (s.smbOn = true →
      (∀ off : W32, Completes (.smbSetOffset off) s fun t =>
        t.pwr = { s.pwr with smbOffset := off.toNat } ∧ s.same t [.pwr] ∧ s.sends t []) ∧
      (0x300000 ≤ s.pwr.smbOffset → s.pwr.smbOffset < 0x400000 → ctlWidth s.pwr.smbOffset = 4 → Completes .smbRead32 s fun t =>
        s.sends t [.smbus (leBytes 4 (s.rd s.pwr.smbOffset).toNat)] ∧ t.pwr.smbOffset = s.pwr.smbOffset + 4 ∧
        s.same t [.pwr]) ∧
      (0x300000 ≤ s.pwr.smbOffset → s.pwr.smbOffset < 0x400000 → s.pwr.smbOffset % 8 = 0 → ctlWidth s.pwr.smbOffset = 8 →
        Completes .smbRead64 s fun t =>
          s.sends t [.smbus (leBytes 8 (s.rd s.pwr.smbOffset).toNat)] ∧ t.pwr.smbOffset = s.pwr.smbOffset + 8 ∧
          s.same t [.pwr]) ∧
      (0x400000 ≤ s.pwr.smbOffset → s.pwr.smbOffset < 2 ^ 32 →
        (Completes .smbRead32 s fun t => s.sends t [.smbus (List.replicate 4 0)] ∧
          t.pwr.smbOffset = (s.pwr.smbOffset + 4) % 2 ^ 32 ∧ s.same t [.pwr]) ∧
        (Completes .smbRead64 s fun t => s.sends t [.smbus (List.replicate 8 0)] ∧
          t.pwr.smbOffset = (s.pwr.smbOffset + 8) % 2 ^ 32 ∧ s.same t [.pwr]))) ∧
    (Completes .bypass s fun t => t.pwr = { s.pwr with jtag := 0, driven := [] } ∧ s.same t [.pwr] ∧ s.sends t []) ∧
    (∀ sampled preload : List Bool, Completes (.samplePreload sampled preload) s fun t =>
      t.pwr = { s.pwr with jtag := 1, scan := preload, driven := [] } ∧ s.same t [.pwr] ∧ s.sends t [.jtag sampled]) ∧
    (s.modState = msBooting ∨ s.modState = msFailed → Completes .extest s fun t =>
      t.pwr = { s.pwr with jtag := 2, driven := s.pwr.scan } ∧ s.same t [.pwr] ∧ s.sends t []) ∧
    (s.modState ≠ msBooting → s.modState ≠ msFailed → Completes .extest s fun t => s.same t [] ∧ s.sends t [])
end

