-- ==== Sys2Proof/Laws/Bits.lean ====
section
/-! SUPPORT. Reading a bit field after writing one. -/

namespace Sys2Proof.Machine

theorem testBit_getBits (v : W64) (lo w i : Nat) :
    (getBits v lo w).testBit i = (decide (i < w) && v.toNat.testBit (lo + i)) := by
  simp [getBits, Nat.testBit_mod_two_pow, Nat.testBit_shiftRight]

theorem testBit_setBits (v : W64) (lo w n i : Nat) :
    (setBits v lo w n).toNat.testBit i =
      if lo ≤ i ∧ i < lo + w then decide (i < 64) && n.testBit (i - lo) else v.toNat.testBit i := by
  have hv : v.toNat.testBit i = (decide (i < 64) && v.toNat.testBit i) := by
    by_cases h : i < 64
    · simp [h]
    · simp [h, Nat.testBit_lt_two_pow (Nat.lt_of_lt_of_le v.isLt (Nat.pow_le_pow_right (by omega) (Nat.le_of_not_lt h)))]
  have e1 (j : Nat) : (BitVec.ofNat 64 j).toNat.testBit i = (decide (i < 64) && j.testBit i) := by
    rw [BitVec.toNat_ofNat, Nat.testBit_mod_two_pow]
  have e2 : (setBits v lo w n).toNat.testBit i =
      ((v.toNat.testBit i && (decide (i < 64) && !(decide (lo ≤ i) && decide (i - lo < w)))) ||
        (decide (i < 64) && (decide (lo ≤ i) && (decide (i - lo < w) && n.testBit (i - lo))))) := by
    simp only [setBits, BitVec.toNat_or, BitVec.toNat_and, Nat.testBit_or, Nat.testBit_and]
    congr 1
    · rw [BitVec.testBit_toNat (x := ~~~_), BitVec.getLsbD_not, ← BitVec.testBit_toNat, e1]
      simp only [Nat.testBit_shiftLeft, Nat.testBit_two_pow_sub_one]
      cases decide (i < 64) <;> simp
    · rw [e1]; simp [Nat.testBit_shiftLeft, Nat.testBit_mod_two_pow]
  rw [e2]
  by_cases h : lo ≤ i ∧ i < lo + w
  · have h1 : i - lo < w := by omega
    simp [h, h1]
  · rw [if_neg h]
    conv => rhs; rw [hv]
    have h1 : (decide (lo ≤ i) && decide (i - lo < w)) = false := by simp; omega
    have h2 : ∀ b, (decide (lo ≤ i) && (decide (i - lo < w) && b)) = false := by intro b; rw [← Bool.and_assoc, h1]; rfl
    rw [h1, h2]; simp [Bool.and_comm]

theorem getBits_setBits_same (v : W64) {lo w : Nat} (n : Nat) (h : lo + w ≤ 64) :
    getBits (setBits v lo w n) lo w = n % 2 ^ w := by
  apply Nat.eq_of_testBit_eq; intro i
  rw [testBit_getBits, testBit_setBits, Nat.testBit_mod_two_pow]
  by_cases hi : i < w
  · simp [hi]; omega
  · simp [hi]

theorem getBits_setBits_ne (v : W64) {lo w lo' w' : Nat} (n : Nat) (h : lo + w ≤ lo' ∨ lo' + w' ≤ lo) :
    getBits (setBits v lo w n) lo' w' = getBits v lo' w' := by
  apply Nat.eq_of_testBit_eq; intro i
  rw [testBit_getBits, testBit_setBits, testBit_getBits]
  by_cases hi : i < w'
  · rw [if_neg (by omega)]
  · simp [hi]

theorem getBits_lt (v : W64) (lo w : Nat) : getBits v lo w < 2 ^ w := Nat.mod_lt _ (Nat.two_pow_pos w)

end Sys2Proof.Machine
end

