-- ==== Sys2Proof/Laws/Table.lean ====
section
/-! SUPPORT. The laws of the sparse tables: a read after a write, on every table, and the canonical form kept. -/

namespace Sys2Proof.Machine

variable {α : Type}

theorem tfind_tins (k : Nat) (v : α) (t : List (Nat × α)) (j : Nat) :
    tfind j (tins k v t) = if j = k then some v else tfind j t := by
  induction t with
  | nil => by_cases h : k = j <;> simp [tins, tfind, h, eq_comm]
  | cons e t ih =>
    obtain ⟨i, w⟩ := e
    simp only [tins]
    split
    · subst i; by_cases h : k = j <;> simp [tfind, h, eq_comm]
    · split
      · by_cases h : k = j <;> simp [tfind, h, eq_comm]
      · simp only [tfind, ih]
        by_cases h : i = j
        · subst h; simp_all
        · simp [h]

theorem tfind_tdel (k : Nat) (t : List (Nat × α)) (j : Nat) :
    tfind j (tdel k t) = if j = k then none else tfind j t := by
  induction t with
  | nil => simp [tdel, tfind]
  | cons e t ih =>
    obtain ⟨i, w⟩ := e
    simp only [tdel, List.filter_cons] at ih ⊢
    by_cases hi : i = k
    · subst hi; simp only [bne_self_eq_false, Bool.false_eq_true, if_false, ih, tfind]
      by_cases h : j = i <;> simp [h, eq_comm]
    · simp only [bne_iff_ne, ne_eq, hi, not_false_eq_true, if_true, tfind, ih]
      by_cases h : i = j
      · subst h; simp [hi]
      · simp [h]

/-- A read after a write of a table: the written key has the value, every other key what it had. -/
@[simp] theorem tget_tset [DecidableEq α] (d : Nat → α) (t : List (Nat × α)) (k : Nat) (v : α) (j : Nat) :
    tget d (tset d t k v) j = if j = k then v else tget d t j := by
  unfold tget tset
  split
  · rw [tfind_tdel]; split <;> simp_all
  · rw [tfind_tins]; split <;> simp

@[simp] theorem tget_tmod [DecidableEq α] (d : Nat → α) (t : List (Nat × α)) (k : Nat) (f : α → α) (j : Nat) :
    tget d (tmod d t k f) j = if j = k then f (tget d t k) else tget d t j := by simp [tmod]

@[simp] theorem tget_nil (d : Nat → α) (k : Nat) : tget d [] k = d k := rfl

theorem twfFrom_mono [DecidableEq α] {d : Nat → α} {t : List (Nat × α)} {a b : Nat} (h : twfFrom d a t = true)
    (hb : b ≤ a) : twfFrom d b t = true := by
  cases t with
  | nil => rfl
  | cons e t => simp only [twfFrom, Bool.and_eq_true, decide_eq_true_eq] at h ⊢; exact ⟨⟨by omega, h.1.2⟩, h.2⟩

theorem twfFrom_tins [DecidableEq α] {d : Nat → α} {t : List (Nat × α)} {lo k : Nat} {v : α}
    (h : twfFrom d lo t = true) (hk : lo ≤ k) (hv : v ≠ d k) : twfFrom d lo (tins k v t) = true := by
  induction t generalizing lo with
  | nil => simp [tins, twfFrom, hk, hv]
  | cons e t ih =>
    obtain ⟨i, w⟩ := e
    simp only [twfFrom, Bool.and_eq_true, decide_eq_true_eq] at h
    simp only [tins]
    split
    · subst i; simp [twfFrom, hk, hv, h.2]
    · split
      · simp only [twfFrom, Bool.and_eq_true, decide_eq_true_eq]
        exact ⟨⟨hk, hv⟩, ⟨by omega, h.1.2⟩, h.2⟩
      · simp only [twfFrom, Bool.and_eq_true, decide_eq_true_eq]
        exact ⟨h.1, ih h.2 (by omega)⟩

theorem twfFrom_tdel [DecidableEq α] {d : Nat → α} {t : List (Nat × α)} {lo : Nat} (k : Nat)
    (h : twfFrom d lo t = true) : twfFrom d lo (tdel k t) = true := by
  induction t generalizing lo with
  | nil => rfl
  | cons e t ih =>
    obtain ⟨i, w⟩ := e
    simp only [twfFrom, Bool.and_eq_true, decide_eq_true_eq] at h
    simp only [tdel, List.filter_cons] at ih ⊢
    split
    · simp only [twfFrom, Bool.and_eq_true, decide_eq_true_eq]; exact ⟨h.1, ih h.2⟩
    · exact ih (twfFrom_mono h.2 (by omega))

/-- Every write keeps the canonical form. -/
theorem twf_tset [DecidableEq α] {d : Nat → α} {t : List (Nat × α)} (k : Nat) (v : α) (h : twf d t = true) :
    twf d (tset d t k v) = true := by
  unfold twf tset at *
  split
  · exact twfFrom_tdel k h
  · exact twfFrom_tins h (Nat.zero_le _) ‹_›

theorem twf_tmod [DecidableEq α] {d : Nat → α} {t : List (Nat × α)} (k : Nat) (f : α → α) (h : twf d t = true) :
    twf d (tmod d t k f) = true := twf_tset k _ h

end Sys2Proof.Machine
end

