-- ==== Sys2Proof/Laws/State.lean ====
section
/-! SUPPORT. What each basic operation on the state leaves alone, field by field, and what a register reads as after it. -/

namespace Sys2Proof.Machine
namespace State

variable (s : State)

/-! ### Registers -/

@[simp] theorem rd_wr (a b : Nat) (v : W64) : (s.wr a v).rd b = if b = a then v else s.rd b := by simp [rd, wr]
@[simp] theorem rd_wrN (a b n : Nat) : (s.wrN a n).rd b = if b = a then BitVec.ofNat 64 n else s.rd b := by simp [wrN]
@[simp] theorem rd_addCtr (w a k b : Nat) :
    (s.addCtr w a k).rd b = if b = a then BitVec.ofNat 64 (((s.rd a).toNat + k) % 2 ^ w) else s.rd b := by simp [addCtr]
@[simp] theorem rd_cnt (a b : Nat) :
    (s.cnt a).rd b = if b = a then BitVec.ofNat 64 (((s.rd a).toNat + 1) % 2 ^ 48) else s.rd b := by simp [cnt]
@[simp] theorem rd_sf (f : Fld) (n b : Nat) :
    (s.sf f n).rd b = if b = f.off then setBits (s.rd f.off) f.lo f.width n else s.rd b := by simp [sf]

/-- A field reads as what was written to it. -/
theorem gf_sf_self (f : Fld) (n : Nat) (h : f.lo + f.width ≤ 64) : (s.sf f n).gf f = n % 2 ^ f.width := by
  simp [gf, getBits_setBits_same _ _ h]
/-- A field of another register keeps its value. -/
theorem gf_sf_off (f g : Fld) (n : Nat) (h : g.off ≠ f.off) : (s.sf f n).gf g = s.gf g := by simp [gf, h]
/-- Another field of the same register keeps its value. -/
theorem gf_sf_ne (f g : Fld) (n : Nat) (h : f.lo + f.width ≤ g.lo ∨ g.lo + g.width ≤ f.lo) :
    (s.sf f n).gf g = s.gf g := by
  simp only [gf, rd_sf]; split
  · rw [getBits_setBits_ne _ _ h, ‹g.off = f.off›]
  · rfl
theorem gf_wr_ne (f : Fld) (a : Nat) (v : W64) (h : f.off ≠ a) : (s.wr a v).gf f = s.gf f := by simp [gf, h]
theorem gf_wrN_ne (f : Fld) (a n : Nat) (h : f.off ≠ a) : (s.wrN a n).gf f = s.gf f := by simp [gf, h]
theorem gf_cnt_ne (f : Fld) (a : Nat) (h : f.off ≠ a) : (s.cnt a).gf f = s.gf f := by simp [gf, h]
theorem gf_addCtr_ne (f : Fld) (w a k : Nat) (h : f.off ≠ a) : (s.addCtr w a k).gf f = s.gf f := by simp [gf, h]
theorem gf_congr {s t : State} (f : Fld) (h : t.rd f.off = s.rd f.off) : t.gf f = s.gf f := by simp [gf, h]
theorem flag_congr {s t : State} (f : Fld) (h : t.rd f.off = s.rd f.off) : t.flag f = s.flag f := by simp [flag, gf, h]

/-! ### Events -/

theorem setCycle_eq (off : Nat) (e : EvCycle) :
    s.setCycle off e = { s with regs := (s.setCycle off e).regs, evt := (s.setCycle off e).evt } := by
  unfold setCycle; dsimp only; split
  · split <;> rfl
  · rfl
theorem setBitsHw_eq (off m : Nat) :
    s.setBitsHw off m = { s with regs := (s.setBitsHw off m).regs, evt := (s.setBitsHw off m).evt } := by
  unfold setBitsHw; dsimp only; rw [setCycle_eq]; rfl
theorem raiseMask_eq (off m : Nat) :
    s.raiseMask off m = { s with regs := (s.raiseMask off m).regs, evt := (s.raiseMask off m).evt } := by
  unfold raiseMask; dsimp only; split
  · rw [setBitsHw_eq (s.setBitsHw off m), setBitsHw_eq s]
  · rw [setBitsHw_eq]
theorem raise_eq (f : Fld) : s.raise f = { s with regs := (s.raise f).regs, evt := (s.raise f).evt } := raiseMask_eq s _ _
theorem note_eq (f : Fld) (c : Nat) : s.note f c = { s with regs := (s.note f c).regs, evt := (s.note f c).evt } := by
  unfold note; rw [raise_eq]; rfl
theorem clearEvents_eq (off v h : Nat) :
    s.clearEvents off v h = { s with regs := (s.clearEvents off v h).regs, evt := (s.clearEvents off v h).evt } := by
  unfold clearEvents; dsimp only; rw [setCycle_eq]; rfl

theorem rd_setCycle_ne (off b : Nat) (e : EvCycle) (h : reoccOf off ≠ some b) : (s.setCycle off e).rd b = s.rd b := by
  unfold setCycle; dsimp only; split
  · rename_i r hr; split
    · rfl
    · show (s.addCtr 32 r _).rd b = s.rd b
      rw [rd_addCtr, if_neg (by intro hb; subst hb; exact h hr)]
  · rfl
theorem reoccOf_ne (off : Nat) : reoccOf off ≠ some off := by
  unfold reoccOf; split
  · simp
  · split <;> simp

theorem reoccOf_half {off : Nat} (h : 0x600000 ≤ off) (h' : off < 0x700000) : reoccOf off = some (off + 0x10) := by
  have h0 : off ≠ R.DECODE_ERR := by unfold R.DECODE_ERR; omega
  simp [reoccOf, h0, h, h']
theorem reoccOf_plain {off : Nat} (h : off ≠ R.DECODE_ERR) (h' : off < 0x600000 ∨ 0x700000 ≤ off) :
    reoccOf off = some (off + 4) := by
  have h0 : ¬ (0x600000 ≤ off ∧ off < 0x700000) := by omega
  simp only [reoccOf, if_neg h, if_neg h0]
theorem isRigPortEvents_lt {off : Nat} (h : off < 0x6001000) : isRigPortEvents off = false := by
  have : ¬ 0x6001000 ≤ off := by omega
  simp [isRigPortEvents, this]
theorem isRigPortEvents_ge {off : Nat} (h : 0x6003000 ≤ off) : isRigPortEvents off = false := by
  have : ¬ off < 0x6003000 := by omega
  simp [isRigPortEvents, this]

/-- Hardware setting bits of an events register: those bits are then 1 and the others keep their values (R485). -/
@[simp] theorem rd_setBitsHw_self (off m : Nat) :
    (s.setBitsHw off m).rd off = s.rd off ||| BitVec.ofNat 64 m := by
  show ((s.setCycle off _).wr off _).rd off = _
  simp
theorem rd_setBitsHw_ne (off m b : Nat) (h : b ≠ off) (h' : reoccOf off ≠ some b) :
    (s.setBitsHw off m).rd b = s.rd b := by
  show ((s.setCycle off _).wr off _).rd b = s.rd b
  rw [rd_wr, if_neg h]; exact rd_setCycle_ne s off b _ h'
theorem raise_plain (f : Fld) (h : isRigPortEvents f.off = false) : s.raise f = s.setBitsHw f.off (2 ^ f.lo) := by
  simp [raise, raiseMask, h]
theorem rd_raise_self (f : Fld) (h : isRigPortEvents f.off = false) :
    (s.raise f).rd f.off = s.rd f.off ||| BitVec.ofNat 64 (2 ^ f.lo) := by rw [raise_plain s f h]; simp
theorem rd_raise_ne (f : Fld) (b : Nat) (h : isRigPortEvents f.off = false) (hb : b ≠ f.off)
    (hr : reoccOf f.off ≠ some b) : (s.raise f).rd b = s.rd b := by
  rw [raise_plain s f h]; exact rd_setBitsHw_ne s _ _ _ hb hr

/-! ### Operations that touch no register -/

@[simp] theorem rd_emit (o : Out) (b : Nat) : (s.emit o).rd b = s.rd b := rfl
@[simp] theorem rd_modEth (p : Nat) (f : EthPort → EthPort) (b : Nat) : (s.modEth p f).rd b = s.rd b := rfl
@[simp] theorem rd_modRing (n : Nat) (f : RingEng → RingEng) (b : Nat) : (s.modRing n f).rd b = s.rd b := rfl
@[simp] theorem hbmWrite_evt (a : Nat) (d : List Byte) (pz : Nat) : (s.hbmWrite a d pz).evt = s.evt := by
  unfold hbmWrite; split <;> rfl
@[simp] theorem rd_hbmWrite (a : Nat) (d : List Byte) (pz b : Nat) : (s.hbmWrite a d pz).rd b = s.rd b := by
  unfold hbmWrite; split <;> rfl

/-! ### Engine tables -/

@[simp] theorem ethPort_modEth (p q : Nat) (f : EthPort → EthPort) :
    (s.modEth p f).ethPort q = if q = p then f (s.ethPort p) else s.ethPort q := by simp [modEth, ethPort]
@[simp] theorem ring_modRing (n k : Nat) (f : RingEng → RingEng) :
    (s.modRing n f).ring k = if k = n then f (s.ring n) else s.ring k := by simp [modRing, ring]

/-! ### The other fields -/

@[simp] theorem wr_pending (a : Nat) (v : W64) : (s.wr a v).pending = s.pending := rfl
@[simp] theorem wr_now (a : Nat) (v : W64) : (s.wr a v).now = s.now := rfl
@[simp] theorem wr_freeCtr (a : Nat) (v : W64) : (s.wr a v).freeCtr = s.freeCtr := rfl
@[simp] theorem wr_upper (a : Nat) (v : W64) : (s.wr a v).upper = s.upper := rfl
@[simp] theorem wr_evt (a : Nat) (v : W64) : (s.wr a v).evt = s.evt := rfl
@[simp] theorem wr_hbm (a : Nat) (v : W64) : (s.wr a v).hbm = s.hbm := rfl
@[simp] theorem wr_hbmPoison (a : Nat) (v : W64) : (s.wr a v).hbmPoison = s.hbmPoison := rfl
@[simp] theorem wr_out (a : Nat) (v : W64) : (s.wr a v).out = s.out := rfl
@[simp] theorem wr_ptp (a : Nat) (v : W64) : (s.wr a v).ptp = s.ptp := rfl
@[simp] theorem wr_eth (a : Nat) (v : W64) : (s.wr a v).eth = s.eth := rfl
@[simp] theorem wr_rings (a : Nat) (v : W64) : (s.wr a v).rings = s.rings := rfl
@[simp] theorem wr_hly (a : Nat) (v : W64) : (s.wr a v).hly = s.hly := rfl
@[simp] theorem wr_cut (a : Nat) (v : W64) : (s.wr a v).cut = s.cut := rfl
@[simp] theorem wr_teu (a : Nat) (v : W64) : (s.wr a v).teu = s.teu := rfl
@[simp] theorem wr_hold (a : Nat) (v : W64) : (s.wr a v).hold = s.hold := rfl
@[simp] theorem wr_grid (a : Nat) (v : W64) : (s.wr a v).grid = s.grid := rfl
@[simp] theorem wr_job (a : Nat) (v : W64) : (s.wr a v).job = s.job := rfl
@[simp] theorem wr_rig (a : Nat) (v : W64) : (s.wr a v).rig = s.rig := rfl
@[simp] theorem wr_recov (a : Nat) (v : W64) : (s.wr a v).recov = s.recov := rfl
@[simp] theorem wr_boot (a : Nat) (v : W64) : (s.wr a v).boot = s.boot := rfl
@[simp] theorem wr_pwr (a : Nat) (v : W64) : (s.wr a v).pwr = s.pwr := rfl
@[simp] theorem wr_irq (a : Nat) (v : W64) : (s.wr a v).irq = s.irq := rfl

@[simp] theorem wrN_pending (a n : Nat) : (s.wrN a n).pending = s.pending := rfl
@[simp] theorem wrN_now (a n : Nat) : (s.wrN a n).now = s.now := rfl
@[simp] theorem wrN_freeCtr (a n : Nat) : (s.wrN a n).freeCtr = s.freeCtr := rfl
@[simp] theorem wrN_upper (a n : Nat) : (s.wrN a n).upper = s.upper := rfl
@[simp] theorem wrN_evt (a n : Nat) : (s.wrN a n).evt = s.evt := rfl
@[simp] theorem wrN_hbm (a n : Nat) : (s.wrN a n).hbm = s.hbm := rfl
@[simp] theorem wrN_hbmPoison (a n : Nat) : (s.wrN a n).hbmPoison = s.hbmPoison := rfl
@[simp] theorem wrN_out (a n : Nat) : (s.wrN a n).out = s.out := rfl
@[simp] theorem wrN_ptp (a n : Nat) : (s.wrN a n).ptp = s.ptp := rfl
@[simp] theorem wrN_eth (a n : Nat) : (s.wrN a n).eth = s.eth := rfl
@[simp] theorem wrN_rings (a n : Nat) : (s.wrN a n).rings = s.rings := rfl
@[simp] theorem wrN_hly (a n : Nat) : (s.wrN a n).hly = s.hly := rfl
@[simp] theorem wrN_cut (a n : Nat) : (s.wrN a n).cut = s.cut := rfl
@[simp] theorem wrN_teu (a n : Nat) : (s.wrN a n).teu = s.teu := rfl
@[simp] theorem wrN_hold (a n : Nat) : (s.wrN a n).hold = s.hold := rfl
@[simp] theorem wrN_grid (a n : Nat) : (s.wrN a n).grid = s.grid := rfl
@[simp] theorem wrN_job (a n : Nat) : (s.wrN a n).job = s.job := rfl
@[simp] theorem wrN_rig (a n : Nat) : (s.wrN a n).rig = s.rig := rfl
@[simp] theorem wrN_recov (a n : Nat) : (s.wrN a n).recov = s.recov := rfl
@[simp] theorem wrN_boot (a n : Nat) : (s.wrN a n).boot = s.boot := rfl
@[simp] theorem wrN_pwr (a n : Nat) : (s.wrN a n).pwr = s.pwr := rfl
@[simp] theorem wrN_irq (a n : Nat) : (s.wrN a n).irq = s.irq := rfl

@[simp] theorem sf_pending (f : Fld) (n : Nat) : (s.sf f n).pending = s.pending := rfl
@[simp] theorem sf_now (f : Fld) (n : Nat) : (s.sf f n).now = s.now := rfl
@[simp] theorem sf_freeCtr (f : Fld) (n : Nat) : (s.sf f n).freeCtr = s.freeCtr := rfl
@[simp] theorem sf_upper (f : Fld) (n : Nat) : (s.sf f n).upper = s.upper := rfl
@[simp] theorem sf_evt (f : Fld) (n : Nat) : (s.sf f n).evt = s.evt := rfl
@[simp] theorem sf_hbm (f : Fld) (n : Nat) : (s.sf f n).hbm = s.hbm := rfl
@[simp] theorem sf_hbmPoison (f : Fld) (n : Nat) : (s.sf f n).hbmPoison = s.hbmPoison := rfl
@[simp] theorem sf_out (f : Fld) (n : Nat) : (s.sf f n).out = s.out := rfl
@[simp] theorem sf_ptp (f : Fld) (n : Nat) : (s.sf f n).ptp = s.ptp := rfl
@[simp] theorem sf_eth (f : Fld) (n : Nat) : (s.sf f n).eth = s.eth := rfl
@[simp] theorem sf_rings (f : Fld) (n : Nat) : (s.sf f n).rings = s.rings := rfl
@[simp] theorem sf_hly (f : Fld) (n : Nat) : (s.sf f n).hly = s.hly := rfl
@[simp] theorem sf_cut (f : Fld) (n : Nat) : (s.sf f n).cut = s.cut := rfl
@[simp] theorem sf_teu (f : Fld) (n : Nat) : (s.sf f n).teu = s.teu := rfl
@[simp] theorem sf_hold (f : Fld) (n : Nat) : (s.sf f n).hold = s.hold := rfl
@[simp] theorem sf_grid (f : Fld) (n : Nat) : (s.sf f n).grid = s.grid := rfl
@[simp] theorem sf_job (f : Fld) (n : Nat) : (s.sf f n).job = s.job := rfl
@[simp] theorem sf_rig (f : Fld) (n : Nat) : (s.sf f n).rig = s.rig := rfl
@[simp] theorem sf_recov (f : Fld) (n : Nat) : (s.sf f n).recov = s.recov := rfl
@[simp] theorem sf_boot (f : Fld) (n : Nat) : (s.sf f n).boot = s.boot := rfl
@[simp] theorem sf_pwr (f : Fld) (n : Nat) : (s.sf f n).pwr = s.pwr := rfl
@[simp] theorem sf_irq (f : Fld) (n : Nat) : (s.sf f n).irq = s.irq := rfl

@[simp] theorem addCtr_pending (w a k : Nat) : (s.addCtr w a k).pending = s.pending := rfl
@[simp] theorem addCtr_now (w a k : Nat) : (s.addCtr w a k).now = s.now := rfl
@[simp] theorem addCtr_freeCtr (w a k : Nat) : (s.addCtr w a k).freeCtr = s.freeCtr := rfl
@[simp] theorem addCtr_upper (w a k : Nat) : (s.addCtr w a k).upper = s.upper := rfl
@[simp] theorem addCtr_evt (w a k : Nat) : (s.addCtr w a k).evt = s.evt := rfl
@[simp] theorem addCtr_hbm (w a k : Nat) : (s.addCtr w a k).hbm = s.hbm := rfl
@[simp] theorem addCtr_hbmPoison (w a k : Nat) : (s.addCtr w a k).hbmPoison = s.hbmPoison := rfl
@[simp] theorem addCtr_out (w a k : Nat) : (s.addCtr w a k).out = s.out := rfl
@[simp] theorem addCtr_ptp (w a k : Nat) : (s.addCtr w a k).ptp = s.ptp := rfl
@[simp] theorem addCtr_eth (w a k : Nat) : (s.addCtr w a k).eth = s.eth := rfl
@[simp] theorem addCtr_rings (w a k : Nat) : (s.addCtr w a k).rings = s.rings := rfl
@[simp] theorem addCtr_hly (w a k : Nat) : (s.addCtr w a k).hly = s.hly := rfl
@[simp] theorem addCtr_cut (w a k : Nat) : (s.addCtr w a k).cut = s.cut := rfl
@[simp] theorem addCtr_teu (w a k : Nat) : (s.addCtr w a k).teu = s.teu := rfl
@[simp] theorem addCtr_hold (w a k : Nat) : (s.addCtr w a k).hold = s.hold := rfl
@[simp] theorem addCtr_grid (w a k : Nat) : (s.addCtr w a k).grid = s.grid := rfl
@[simp] theorem addCtr_job (w a k : Nat) : (s.addCtr w a k).job = s.job := rfl
@[simp] theorem addCtr_rig (w a k : Nat) : (s.addCtr w a k).rig = s.rig := rfl
@[simp] theorem addCtr_recov (w a k : Nat) : (s.addCtr w a k).recov = s.recov := rfl
@[simp] theorem addCtr_boot (w a k : Nat) : (s.addCtr w a k).boot = s.boot := rfl
@[simp] theorem addCtr_pwr (w a k : Nat) : (s.addCtr w a k).pwr = s.pwr := rfl
@[simp] theorem addCtr_irq (w a k : Nat) : (s.addCtr w a k).irq = s.irq := rfl

@[simp] theorem cnt_pending (a : Nat) : (s.cnt a).pending = s.pending := rfl
@[simp] theorem cnt_now (a : Nat) : (s.cnt a).now = s.now := rfl
@[simp] theorem cnt_freeCtr (a : Nat) : (s.cnt a).freeCtr = s.freeCtr := rfl
@[simp] theorem cnt_upper (a : Nat) : (s.cnt a).upper = s.upper := rfl
@[simp] theorem cnt_evt (a : Nat) : (s.cnt a).evt = s.evt := rfl
@[simp] theorem cnt_hbm (a : Nat) : (s.cnt a).hbm = s.hbm := rfl
@[simp] theorem cnt_hbmPoison (a : Nat) : (s.cnt a).hbmPoison = s.hbmPoison := rfl
@[simp] theorem cnt_out (a : Nat) : (s.cnt a).out = s.out := rfl
@[simp] theorem cnt_ptp (a : Nat) : (s.cnt a).ptp = s.ptp := rfl
@[simp] theorem cnt_eth (a : Nat) : (s.cnt a).eth = s.eth := rfl
@[simp] theorem cnt_rings (a : Nat) : (s.cnt a).rings = s.rings := rfl
@[simp] theorem cnt_hly (a : Nat) : (s.cnt a).hly = s.hly := rfl
@[simp] theorem cnt_cut (a : Nat) : (s.cnt a).cut = s.cut := rfl
@[simp] theorem cnt_teu (a : Nat) : (s.cnt a).teu = s.teu := rfl
@[simp] theorem cnt_hold (a : Nat) : (s.cnt a).hold = s.hold := rfl
@[simp] theorem cnt_grid (a : Nat) : (s.cnt a).grid = s.grid := rfl
@[simp] theorem cnt_job (a : Nat) : (s.cnt a).job = s.job := rfl
@[simp] theorem cnt_rig (a : Nat) : (s.cnt a).rig = s.rig := rfl
@[simp] theorem cnt_recov (a : Nat) : (s.cnt a).recov = s.recov := rfl
@[simp] theorem cnt_boot (a : Nat) : (s.cnt a).boot = s.boot := rfl
@[simp] theorem cnt_pwr (a : Nat) : (s.cnt a).pwr = s.pwr := rfl
@[simp] theorem cnt_irq (a : Nat) : (s.cnt a).irq = s.irq := rfl

@[simp] theorem setBitsHw_pending (a m : Nat) : (s.setBitsHw a m).pending = s.pending := by rw [setBitsHw_eq]
@[simp] theorem setBitsHw_now (a m : Nat) : (s.setBitsHw a m).now = s.now := by rw [setBitsHw_eq]
@[simp] theorem setBitsHw_freeCtr (a m : Nat) : (s.setBitsHw a m).freeCtr = s.freeCtr := by rw [setBitsHw_eq]
@[simp] theorem setBitsHw_upper (a m : Nat) : (s.setBitsHw a m).upper = s.upper := by rw [setBitsHw_eq]
@[simp] theorem setBitsHw_hbm (a m : Nat) : (s.setBitsHw a m).hbm = s.hbm := by rw [setBitsHw_eq]
@[simp] theorem setBitsHw_hbmPoison (a m : Nat) : (s.setBitsHw a m).hbmPoison = s.hbmPoison := by rw [setBitsHw_eq]
@[simp] theorem setBitsHw_out (a m : Nat) : (s.setBitsHw a m).out = s.out := by rw [setBitsHw_eq]
@[simp] theorem setBitsHw_ptp (a m : Nat) : (s.setBitsHw a m).ptp = s.ptp := by rw [setBitsHw_eq]
@[simp] theorem setBitsHw_eth (a m : Nat) : (s.setBitsHw a m).eth = s.eth := by rw [setBitsHw_eq]
@[simp] theorem setBitsHw_rings (a m : Nat) : (s.setBitsHw a m).rings = s.rings := by rw [setBitsHw_eq]
@[simp] theorem setBitsHw_hly (a m : Nat) : (s.setBitsHw a m).hly = s.hly := by rw [setBitsHw_eq]
@[simp] theorem setBitsHw_cut (a m : Nat) : (s.setBitsHw a m).cut = s.cut := by rw [setBitsHw_eq]
@[simp] theorem setBitsHw_teu (a m : Nat) : (s.setBitsHw a m).teu = s.teu := by rw [setBitsHw_eq]
@[simp] theorem setBitsHw_hold (a m : Nat) : (s.setBitsHw a m).hold = s.hold := by rw [setBitsHw_eq]
@[simp] theorem setBitsHw_grid (a m : Nat) : (s.setBitsHw a m).grid = s.grid := by rw [setBitsHw_eq]
@[simp] theorem setBitsHw_job (a m : Nat) : (s.setBitsHw a m).job = s.job := by rw [setBitsHw_eq]
@[simp] theorem setBitsHw_rig (a m : Nat) : (s.setBitsHw a m).rig = s.rig := by rw [setBitsHw_eq]
@[simp] theorem setBitsHw_recov (a m : Nat) : (s.setBitsHw a m).recov = s.recov := by rw [setBitsHw_eq]
@[simp] theorem setBitsHw_boot (a m : Nat) : (s.setBitsHw a m).boot = s.boot := by rw [setBitsHw_eq]
@[simp] theorem setBitsHw_pwr (a m : Nat) : (s.setBitsHw a m).pwr = s.pwr := by rw [setBitsHw_eq]
@[simp] theorem setBitsHw_irq (a m : Nat) : (s.setBitsHw a m).irq = s.irq := by rw [setBitsHw_eq]

@[simp] theorem raiseMask_pending (a m : Nat) : (s.raiseMask a m).pending = s.pending := by rw [raiseMask_eq]
@[simp] theorem raiseMask_now (a m : Nat) : (s.raiseMask a m).now = s.now := by rw [raiseMask_eq]
@[simp] theorem raiseMask_freeCtr (a m : Nat) : (s.raiseMask a m).freeCtr = s.freeCtr := by rw [raiseMask_eq]
@[simp] theorem raiseMask_upper (a m : Nat) : (s.raiseMask a m).upper = s.upper := by rw [raiseMask_eq]
@[simp] theorem raiseMask_hbm (a m : Nat) : (s.raiseMask a m).hbm = s.hbm := by rw [raiseMask_eq]
@[simp] theorem raiseMask_hbmPoison (a m : Nat) : (s.raiseMask a m).hbmPoison = s.hbmPoison := by rw [raiseMask_eq]
@[simp] theorem raiseMask_out (a m : Nat) : (s.raiseMask a m).out = s.out := by rw [raiseMask_eq]
@[simp] theorem raiseMask_ptp (a m : Nat) : (s.raiseMask a m).ptp = s.ptp := by rw [raiseMask_eq]
@[simp] theorem raiseMask_eth (a m : Nat) : (s.raiseMask a m).eth = s.eth := by rw [raiseMask_eq]
@[simp] theorem raiseMask_rings (a m : Nat) : (s.raiseMask a m).rings = s.rings := by rw [raiseMask_eq]
@[simp] theorem raiseMask_hly (a m : Nat) : (s.raiseMask a m).hly = s.hly := by rw [raiseMask_eq]
@[simp] theorem raiseMask_cut (a m : Nat) : (s.raiseMask a m).cut = s.cut := by rw [raiseMask_eq]
@[simp] theorem raiseMask_teu (a m : Nat) : (s.raiseMask a m).teu = s.teu := by rw [raiseMask_eq]
@[simp] theorem raiseMask_hold (a m : Nat) : (s.raiseMask a m).hold = s.hold := by rw [raiseMask_eq]
@[simp] theorem raiseMask_grid (a m : Nat) : (s.raiseMask a m).grid = s.grid := by rw [raiseMask_eq]
@[simp] theorem raiseMask_job (a m : Nat) : (s.raiseMask a m).job = s.job := by rw [raiseMask_eq]
@[simp] theorem raiseMask_rig (a m : Nat) : (s.raiseMask a m).rig = s.rig := by rw [raiseMask_eq]
@[simp] theorem raiseMask_recov (a m : Nat) : (s.raiseMask a m).recov = s.recov := by rw [raiseMask_eq]
@[simp] theorem raiseMask_boot (a m : Nat) : (s.raiseMask a m).boot = s.boot := by rw [raiseMask_eq]
@[simp] theorem raiseMask_pwr (a m : Nat) : (s.raiseMask a m).pwr = s.pwr := by rw [raiseMask_eq]
@[simp] theorem raiseMask_irq (a m : Nat) : (s.raiseMask a m).irq = s.irq := by rw [raiseMask_eq]

@[simp] theorem raise_pending (f : Fld) : (s.raise f).pending = s.pending := by rw [raise_eq]
@[simp] theorem raise_now (f : Fld) : (s.raise f).now = s.now := by rw [raise_eq]
@[simp] theorem raise_freeCtr (f : Fld) : (s.raise f).freeCtr = s.freeCtr := by rw [raise_eq]
@[simp] theorem raise_upper (f : Fld) : (s.raise f).upper = s.upper := by rw [raise_eq]
@[simp] theorem raise_hbm (f : Fld) : (s.raise f).hbm = s.hbm := by rw [raise_eq]
@[simp] theorem raise_hbmPoison (f : Fld) : (s.raise f).hbmPoison = s.hbmPoison := by rw [raise_eq]
@[simp] theorem raise_out (f : Fld) : (s.raise f).out = s.out := by rw [raise_eq]
@[simp] theorem raise_ptp (f : Fld) : (s.raise f).ptp = s.ptp := by rw [raise_eq]
@[simp] theorem raise_eth (f : Fld) : (s.raise f).eth = s.eth := by rw [raise_eq]
@[simp] theorem raise_rings (f : Fld) : (s.raise f).rings = s.rings := by rw [raise_eq]
@[simp] theorem raise_hly (f : Fld) : (s.raise f).hly = s.hly := by rw [raise_eq]
@[simp] theorem raise_cut (f : Fld) : (s.raise f).cut = s.cut := by rw [raise_eq]
@[simp] theorem raise_teu (f : Fld) : (s.raise f).teu = s.teu := by rw [raise_eq]
@[simp] theorem raise_hold (f : Fld) : (s.raise f).hold = s.hold := by rw [raise_eq]
@[simp] theorem raise_grid (f : Fld) : (s.raise f).grid = s.grid := by rw [raise_eq]
@[simp] theorem raise_job (f : Fld) : (s.raise f).job = s.job := by rw [raise_eq]
@[simp] theorem raise_rig (f : Fld) : (s.raise f).rig = s.rig := by rw [raise_eq]
@[simp] theorem raise_recov (f : Fld) : (s.raise f).recov = s.recov := by rw [raise_eq]
@[simp] theorem raise_boot (f : Fld) : (s.raise f).boot = s.boot := by rw [raise_eq]
@[simp] theorem raise_pwr (f : Fld) : (s.raise f).pwr = s.pwr := by rw [raise_eq]
@[simp] theorem raise_irq (f : Fld) : (s.raise f).irq = s.irq := by rw [raise_eq]

@[simp] theorem note_pending (f : Fld) (c : Nat) : (s.note f c).pending = s.pending := by rw [note_eq]
@[simp] theorem note_now (f : Fld) (c : Nat) : (s.note f c).now = s.now := by rw [note_eq]
@[simp] theorem note_freeCtr (f : Fld) (c : Nat) : (s.note f c).freeCtr = s.freeCtr := by rw [note_eq]
@[simp] theorem note_upper (f : Fld) (c : Nat) : (s.note f c).upper = s.upper := by rw [note_eq]
@[simp] theorem note_hbm (f : Fld) (c : Nat) : (s.note f c).hbm = s.hbm := by rw [note_eq]
@[simp] theorem note_hbmPoison (f : Fld) (c : Nat) : (s.note f c).hbmPoison = s.hbmPoison := by rw [note_eq]
@[simp] theorem note_out (f : Fld) (c : Nat) : (s.note f c).out = s.out := by rw [note_eq]
@[simp] theorem note_ptp (f : Fld) (c : Nat) : (s.note f c).ptp = s.ptp := by rw [note_eq]
@[simp] theorem note_eth (f : Fld) (c : Nat) : (s.note f c).eth = s.eth := by rw [note_eq]
@[simp] theorem note_rings (f : Fld) (c : Nat) : (s.note f c).rings = s.rings := by rw [note_eq]
@[simp] theorem note_hly (f : Fld) (c : Nat) : (s.note f c).hly = s.hly := by rw [note_eq]
@[simp] theorem note_cut (f : Fld) (c : Nat) : (s.note f c).cut = s.cut := by rw [note_eq]
@[simp] theorem note_teu (f : Fld) (c : Nat) : (s.note f c).teu = s.teu := by rw [note_eq]
@[simp] theorem note_hold (f : Fld) (c : Nat) : (s.note f c).hold = s.hold := by rw [note_eq]
@[simp] theorem note_grid (f : Fld) (c : Nat) : (s.note f c).grid = s.grid := by rw [note_eq]
@[simp] theorem note_job (f : Fld) (c : Nat) : (s.note f c).job = s.job := by rw [note_eq]
@[simp] theorem note_rig (f : Fld) (c : Nat) : (s.note f c).rig = s.rig := by rw [note_eq]
@[simp] theorem note_recov (f : Fld) (c : Nat) : (s.note f c).recov = s.recov := by rw [note_eq]
@[simp] theorem note_boot (f : Fld) (c : Nat) : (s.note f c).boot = s.boot := by rw [note_eq]
@[simp] theorem note_pwr (f : Fld) (c : Nat) : (s.note f c).pwr = s.pwr := by rw [note_eq]
@[simp] theorem note_irq (f : Fld) (c : Nat) : (s.note f c).irq = s.irq := by rw [note_eq]

@[simp] theorem clearEvents_pending (a v h : Nat) : (s.clearEvents a v h).pending = s.pending := by rw [clearEvents_eq]
@[simp] theorem clearEvents_now (a v h : Nat) : (s.clearEvents a v h).now = s.now := by rw [clearEvents_eq]
@[simp] theorem clearEvents_freeCtr (a v h : Nat) : (s.clearEvents a v h).freeCtr = s.freeCtr := by rw [clearEvents_eq]
@[simp] theorem clearEvents_upper (a v h : Nat) : (s.clearEvents a v h).upper = s.upper := by rw [clearEvents_eq]
@[simp] theorem clearEvents_hbm (a v h : Nat) : (s.clearEvents a v h).hbm = s.hbm := by rw [clearEvents_eq]
@[simp] theorem clearEvents_hbmPoison (a v h : Nat) : (s.clearEvents a v h).hbmPoison = s.hbmPoison := by rw [clearEvents_eq]
@[simp] theorem clearEvents_out (a v h : Nat) : (s.clearEvents a v h).out = s.out := by rw [clearEvents_eq]
@[simp] theorem clearEvents_ptp (a v h : Nat) : (s.clearEvents a v h).ptp = s.ptp := by rw [clearEvents_eq]
@[simp] theorem clearEvents_eth (a v h : Nat) : (s.clearEvents a v h).eth = s.eth := by rw [clearEvents_eq]
@[simp] theorem clearEvents_rings (a v h : Nat) : (s.clearEvents a v h).rings = s.rings := by rw [clearEvents_eq]
@[simp] theorem clearEvents_hly (a v h : Nat) : (s.clearEvents a v h).hly = s.hly := by rw [clearEvents_eq]
@[simp] theorem clearEvents_cut (a v h : Nat) : (s.clearEvents a v h).cut = s.cut := by rw [clearEvents_eq]
@[simp] theorem clearEvents_teu (a v h : Nat) : (s.clearEvents a v h).teu = s.teu := by rw [clearEvents_eq]
@[simp] theorem clearEvents_hold (a v h : Nat) : (s.clearEvents a v h).hold = s.hold := by rw [clearEvents_eq]
@[simp] theorem clearEvents_grid (a v h : Nat) : (s.clearEvents a v h).grid = s.grid := by rw [clearEvents_eq]
@[simp] theorem clearEvents_job (a v h : Nat) : (s.clearEvents a v h).job = s.job := by rw [clearEvents_eq]
@[simp] theorem clearEvents_rig (a v h : Nat) : (s.clearEvents a v h).rig = s.rig := by rw [clearEvents_eq]
@[simp] theorem clearEvents_recov (a v h : Nat) : (s.clearEvents a v h).recov = s.recov := by rw [clearEvents_eq]
@[simp] theorem clearEvents_boot (a v h : Nat) : (s.clearEvents a v h).boot = s.boot := by rw [clearEvents_eq]
@[simp] theorem clearEvents_pwr (a v h : Nat) : (s.clearEvents a v h).pwr = s.pwr := by rw [clearEvents_eq]
@[simp] theorem clearEvents_irq (a v h : Nat) : (s.clearEvents a v h).irq = s.irq := by rw [clearEvents_eq]

@[simp] theorem emit_regs (o : Out) : (s.emit o).regs = s.regs := rfl
@[simp] theorem emit_pending (o : Out) : (s.emit o).pending = s.pending := rfl
@[simp] theorem emit_now (o : Out) : (s.emit o).now = s.now := rfl
@[simp] theorem emit_freeCtr (o : Out) : (s.emit o).freeCtr = s.freeCtr := rfl
@[simp] theorem emit_upper (o : Out) : (s.emit o).upper = s.upper := rfl
@[simp] theorem emit_evt (o : Out) : (s.emit o).evt = s.evt := rfl
@[simp] theorem emit_hbm (o : Out) : (s.emit o).hbm = s.hbm := rfl
@[simp] theorem emit_hbmPoison (o : Out) : (s.emit o).hbmPoison = s.hbmPoison := rfl
@[simp] theorem emit_ptp (o : Out) : (s.emit o).ptp = s.ptp := rfl
@[simp] theorem emit_eth (o : Out) : (s.emit o).eth = s.eth := rfl
@[simp] theorem emit_rings (o : Out) : (s.emit o).rings = s.rings := rfl
@[simp] theorem emit_hly (o : Out) : (s.emit o).hly = s.hly := rfl
@[simp] theorem emit_cut (o : Out) : (s.emit o).cut = s.cut := rfl
@[simp] theorem emit_teu (o : Out) : (s.emit o).teu = s.teu := rfl
@[simp] theorem emit_hold (o : Out) : (s.emit o).hold = s.hold := rfl
@[simp] theorem emit_grid (o : Out) : (s.emit o).grid = s.grid := rfl
@[simp] theorem emit_job (o : Out) : (s.emit o).job = s.job := rfl
@[simp] theorem emit_rig (o : Out) : (s.emit o).rig = s.rig := rfl
@[simp] theorem emit_recov (o : Out) : (s.emit o).recov = s.recov := rfl
@[simp] theorem emit_boot (o : Out) : (s.emit o).boot = s.boot := rfl
@[simp] theorem emit_pwr (o : Out) : (s.emit o).pwr = s.pwr := rfl
@[simp] theorem emit_irq (o : Out) : (s.emit o).irq = s.irq := rfl

@[simp] theorem modEth_regs (p : Nat) (f : EthPort → EthPort) : (s.modEth p f).regs = s.regs := rfl
@[simp] theorem modEth_pending (p : Nat) (f : EthPort → EthPort) : (s.modEth p f).pending = s.pending := rfl
@[simp] theorem modEth_now (p : Nat) (f : EthPort → EthPort) : (s.modEth p f).now = s.now := rfl
@[simp] theorem modEth_freeCtr (p : Nat) (f : EthPort → EthPort) : (s.modEth p f).freeCtr = s.freeCtr := rfl
@[simp] theorem modEth_upper (p : Nat) (f : EthPort → EthPort) : (s.modEth p f).upper = s.upper := rfl
@[simp] theorem modEth_evt (p : Nat) (f : EthPort → EthPort) : (s.modEth p f).evt = s.evt := rfl
@[simp] theorem modEth_hbm (p : Nat) (f : EthPort → EthPort) : (s.modEth p f).hbm = s.hbm := rfl
@[simp] theorem modEth_hbmPoison (p : Nat) (f : EthPort → EthPort) : (s.modEth p f).hbmPoison = s.hbmPoison := rfl
@[simp] theorem modEth_out (p : Nat) (f : EthPort → EthPort) : (s.modEth p f).out = s.out := rfl
@[simp] theorem modEth_ptp (p : Nat) (f : EthPort → EthPort) : (s.modEth p f).ptp = s.ptp := rfl
@[simp] theorem modEth_rings (p : Nat) (f : EthPort → EthPort) : (s.modEth p f).rings = s.rings := rfl
@[simp] theorem modEth_hly (p : Nat) (f : EthPort → EthPort) : (s.modEth p f).hly = s.hly := rfl
@[simp] theorem modEth_cut (p : Nat) (f : EthPort → EthPort) : (s.modEth p f).cut = s.cut := rfl
@[simp] theorem modEth_teu (p : Nat) (f : EthPort → EthPort) : (s.modEth p f).teu = s.teu := rfl
@[simp] theorem modEth_hold (p : Nat) (f : EthPort → EthPort) : (s.modEth p f).hold = s.hold := rfl
@[simp] theorem modEth_grid (p : Nat) (f : EthPort → EthPort) : (s.modEth p f).grid = s.grid := rfl
@[simp] theorem modEth_job (p : Nat) (f : EthPort → EthPort) : (s.modEth p f).job = s.job := rfl
@[simp] theorem modEth_rig (p : Nat) (f : EthPort → EthPort) : (s.modEth p f).rig = s.rig := rfl
@[simp] theorem modEth_recov (p : Nat) (f : EthPort → EthPort) : (s.modEth p f).recov = s.recov := rfl
@[simp] theorem modEth_boot (p : Nat) (f : EthPort → EthPort) : (s.modEth p f).boot = s.boot := rfl
@[simp] theorem modEth_pwr (p : Nat) (f : EthPort → EthPort) : (s.modEth p f).pwr = s.pwr := rfl
@[simp] theorem modEth_irq (p : Nat) (f : EthPort → EthPort) : (s.modEth p f).irq = s.irq := rfl

@[simp] theorem modRing_regs (n : Nat) (f : RingEng → RingEng) : (s.modRing n f).regs = s.regs := rfl
@[simp] theorem modRing_pending (n : Nat) (f : RingEng → RingEng) : (s.modRing n f).pending = s.pending := rfl
@[simp] theorem modRing_now (n : Nat) (f : RingEng → RingEng) : (s.modRing n f).now = s.now := rfl
@[simp] theorem modRing_freeCtr (n : Nat) (f : RingEng → RingEng) : (s.modRing n f).freeCtr = s.freeCtr := rfl
@[simp] theorem modRing_upper (n : Nat) (f : RingEng → RingEng) : (s.modRing n f).upper = s.upper := rfl
@[simp] theorem modRing_evt (n : Nat) (f : RingEng → RingEng) : (s.modRing n f).evt = s.evt := rfl
@[simp] theorem modRing_hbm (n : Nat) (f : RingEng → RingEng) : (s.modRing n f).hbm = s.hbm := rfl
@[simp] theorem modRing_hbmPoison (n : Nat) (f : RingEng → RingEng) : (s.modRing n f).hbmPoison = s.hbmPoison := rfl
@[simp] theorem modRing_out (n : Nat) (f : RingEng → RingEng) : (s.modRing n f).out = s.out := rfl
@[simp] theorem modRing_ptp (n : Nat) (f : RingEng → RingEng) : (s.modRing n f).ptp = s.ptp := rfl
@[simp] theorem modRing_eth (n : Nat) (f : RingEng → RingEng) : (s.modRing n f).eth = s.eth := rfl
@[simp] theorem modRing_hly (n : Nat) (f : RingEng → RingEng) : (s.modRing n f).hly = s.hly := rfl
@[simp] theorem modRing_cut (n : Nat) (f : RingEng → RingEng) : (s.modRing n f).cut = s.cut := rfl
@[simp] theorem modRing_teu (n : Nat) (f : RingEng → RingEng) : (s.modRing n f).teu = s.teu := rfl
@[simp] theorem modRing_hold (n : Nat) (f : RingEng → RingEng) : (s.modRing n f).hold = s.hold := rfl
@[simp] theorem modRing_grid (n : Nat) (f : RingEng → RingEng) : (s.modRing n f).grid = s.grid := rfl
@[simp] theorem modRing_job (n : Nat) (f : RingEng → RingEng) : (s.modRing n f).job = s.job := rfl
@[simp] theorem modRing_rig (n : Nat) (f : RingEng → RingEng) : (s.modRing n f).rig = s.rig := rfl
@[simp] theorem modRing_recov (n : Nat) (f : RingEng → RingEng) : (s.modRing n f).recov = s.recov := rfl
@[simp] theorem modRing_boot (n : Nat) (f : RingEng → RingEng) : (s.modRing n f).boot = s.boot := rfl
@[simp] theorem modRing_pwr (n : Nat) (f : RingEng → RingEng) : (s.modRing n f).pwr = s.pwr := rfl
@[simp] theorem modRing_irq (n : Nat) (f : RingEng → RingEng) : (s.modRing n f).irq = s.irq := rfl

@[simp] theorem hbmWrite_regs (a : Nat) (d : List Byte) (pz : Nat) : (s.hbmWrite a d pz).regs = s.regs := by unfold hbmWrite; split <;> rfl
@[simp] theorem hbmWrite_pending (a : Nat) (d : List Byte) (pz : Nat) : (s.hbmWrite a d pz).pending = s.pending := by unfold hbmWrite; split <;> rfl
@[simp] theorem hbmWrite_now (a : Nat) (d : List Byte) (pz : Nat) : (s.hbmWrite a d pz).now = s.now := by unfold hbmWrite; split <;> rfl
@[simp] theorem hbmWrite_freeCtr (a : Nat) (d : List Byte) (pz : Nat) : (s.hbmWrite a d pz).freeCtr = s.freeCtr := by unfold hbmWrite; split <;> rfl
@[simp] theorem hbmWrite_upper (a : Nat) (d : List Byte) (pz : Nat) : (s.hbmWrite a d pz).upper = s.upper := by unfold hbmWrite; split <;> rfl
@[simp] theorem hbmWrite_out (a : Nat) (d : List Byte) (pz : Nat) : (s.hbmWrite a d pz).out = s.out := by unfold hbmWrite; split <;> rfl
@[simp] theorem hbmWrite_ptp (a : Nat) (d : List Byte) (pz : Nat) : (s.hbmWrite a d pz).ptp = s.ptp := by unfold hbmWrite; split <;> rfl
@[simp] theorem hbmWrite_eth (a : Nat) (d : List Byte) (pz : Nat) : (s.hbmWrite a d pz).eth = s.eth := by unfold hbmWrite; split <;> rfl
@[simp] theorem hbmWrite_rings (a : Nat) (d : List Byte) (pz : Nat) : (s.hbmWrite a d pz).rings = s.rings := by unfold hbmWrite; split <;> rfl
@[simp] theorem hbmWrite_hly (a : Nat) (d : List Byte) (pz : Nat) : (s.hbmWrite a d pz).hly = s.hly := by unfold hbmWrite; split <;> rfl
@[simp] theorem hbmWrite_cut (a : Nat) (d : List Byte) (pz : Nat) : (s.hbmWrite a d pz).cut = s.cut := by unfold hbmWrite; split <;> rfl
@[simp] theorem hbmWrite_teu (a : Nat) (d : List Byte) (pz : Nat) : (s.hbmWrite a d pz).teu = s.teu := by unfold hbmWrite; split <;> rfl
@[simp] theorem hbmWrite_hold (a : Nat) (d : List Byte) (pz : Nat) : (s.hbmWrite a d pz).hold = s.hold := by unfold hbmWrite; split <;> rfl
@[simp] theorem hbmWrite_grid (a : Nat) (d : List Byte) (pz : Nat) : (s.hbmWrite a d pz).grid = s.grid := by unfold hbmWrite; split <;> rfl
@[simp] theorem hbmWrite_job (a : Nat) (d : List Byte) (pz : Nat) : (s.hbmWrite a d pz).job = s.job := by unfold hbmWrite; split <;> rfl
@[simp] theorem hbmWrite_rig (a : Nat) (d : List Byte) (pz : Nat) : (s.hbmWrite a d pz).rig = s.rig := by unfold hbmWrite; split <;> rfl
@[simp] theorem hbmWrite_recov (a : Nat) (d : List Byte) (pz : Nat) : (s.hbmWrite a d pz).recov = s.recov := by unfold hbmWrite; split <;> rfl
@[simp] theorem hbmWrite_boot (a : Nat) (d : List Byte) (pz : Nat) : (s.hbmWrite a d pz).boot = s.boot := by unfold hbmWrite; split <;> rfl
@[simp] theorem hbmWrite_pwr (a : Nat) (d : List Byte) (pz : Nat) : (s.hbmWrite a d pz).pwr = s.pwr := by unfold hbmWrite; split <;> rfl
@[simp] theorem hbmWrite_irq (a : Nat) (d : List Byte) (pz : Nat) : (s.hbmWrite a d pz).irq = s.irq := by unfold hbmWrite; split <;> rfl

@[simp] theorem emit_out (o : Out) : (s.emit o).out = o :: s.out := rfl

end State
end Sys2Proof.Machine
end

