-- ==== Sys2Proof/Laws/Flags.lean ====
section
/-! SUPPORT. What settling the interrupt lines does (R491 to R493): it changes the lines and sends messages, and touches
nothing else. -/

namespace Sys2Proof.Machine
namespace State

variable (s : State)

theorem signal_eq (k : Nat) : s.signal k = { s with irq := (s.signal k).irq, out := (s.signal k).out } := by
  unfold signal; split <;> rfl
theorem foldl_signal_eq (l : List Nat) :
    l.foldl (fun s k => State.signal s k) s =
      { s with irq := (l.foldl (fun s k => State.signal s k) s).irq, out := (l.foldl (fun s k => State.signal s k) s).out } := by
  induction l generalizing s with
  | nil => rfl
  | cons k l ih => rw [List.foldl_cons, ih, signal_eq]

/-- Settling changes the interrupt lines and what the module has sent out, and nothing else. -/
theorem settle_eq (c : Nat) : s.settle c = { s with irq := (s.settle c).irq, out := (s.settle c).out } := by
  unfold settle; dsimp only; rw [foldl_signal_eq]

@[simp] theorem settle_pending (c : Nat) : (s.settle c).pending = s.pending := by rw [settle_eq]
@[simp] theorem settle_now (c : Nat) : (s.settle c).now = s.now := by rw [settle_eq]
@[simp] theorem settle_freeCtr (c : Nat) : (s.settle c).freeCtr = s.freeCtr := by rw [settle_eq]
@[simp] theorem settle_upper (c : Nat) : (s.settle c).upper = s.upper := by rw [settle_eq]
@[simp] theorem settle_evt (c : Nat) : (s.settle c).evt = s.evt := by rw [settle_eq]
@[simp] theorem settle_hbm (c : Nat) : (s.settle c).hbm = s.hbm := by rw [settle_eq]
@[simp] theorem settle_hbmPoison (c : Nat) : (s.settle c).hbmPoison = s.hbmPoison := by rw [settle_eq]
@[simp] theorem settle_ptp (c : Nat) : (s.settle c).ptp = s.ptp := by rw [settle_eq]
@[simp] theorem settle_eth (c : Nat) : (s.settle c).eth = s.eth := by rw [settle_eq]
@[simp] theorem settle_rings (c : Nat) : (s.settle c).rings = s.rings := by rw [settle_eq]
@[simp] theorem settle_hly (c : Nat) : (s.settle c).hly = s.hly := by rw [settle_eq]
@[simp] theorem settle_cut (c : Nat) : (s.settle c).cut = s.cut := by rw [settle_eq]
@[simp] theorem settle_teu (c : Nat) : (s.settle c).teu = s.teu := by rw [settle_eq]
@[simp] theorem settle_hold (c : Nat) : (s.settle c).hold = s.hold := by rw [settle_eq]
@[simp] theorem settle_grid (c : Nat) : (s.settle c).grid = s.grid := by rw [settle_eq]
@[simp] theorem settle_job (c : Nat) : (s.settle c).job = s.job := by rw [settle_eq]
@[simp] theorem settle_rig (c : Nat) : (s.settle c).rig = s.rig := by rw [settle_eq]
@[simp] theorem settle_recov (c : Nat) : (s.settle c).recov = s.recov := by rw [settle_eq]
@[simp] theorem settle_boot (c : Nat) : (s.settle c).boot = s.boot := by rw [settle_eq]
@[simp] theorem settle_pwr (c : Nat) : (s.settle c).pwr = s.pwr := by rw [settle_eq]
@[simp] theorem settle_regs (c : Nat) : (s.settle c).regs = s.regs := by rw [settle_eq]

@[simp] theorem rd_settle (c b : Nat) : (s.settle c).rd b = s.rd b := by simp [rd]
@[simp] theorem gf_settle (c : Nat) (f : Fld) : (s.settle c).gf f = s.gf f := by simp [gf]
@[simp] theorem flag_settle (c : Nat) (f : Fld) : (s.settle c).flag f = s.flag f := by simp [flag]
@[simp] theorem hbmByte_settle (c a : Nat) : (s.settle c).hbmByte a = s.hbmByte a := by simp [hbmByte]
@[simp] theorem ethPort_settle (c p : Nat) : (s.settle c).ethPort p = s.ethPort p := by simp [ethPort]
@[simp] theorem ring_settle (c n : Nat) : (s.settle c).ring n = s.ring n := by simp [ring]

/-- Leaving the interrupt lines and the outputs aside, settling changes nothing. -/
@[simp] theorem settle_core (c : Nat) (r : List (Nat × W64)) (o : List Out) (i : Irq) :
    { s.settle c with regs := r, out := o, irq := i } = { s with regs := r, out := o, irq := i } := by rw [settle_eq]

theorem summary_regs : s.summary = ({ regs := s.regs } : State).summary := rfl
theorem vectors_regs : s.vectors = ({ regs := s.regs } : State).vectors := rfl
/-- SUMMARY holds no state of its own (R489): it follows from the registers. -/
theorem summary_congr {s t : State} (h : t.regs = s.regs) : t.summary = s.summary := by
  rw [summary_regs, h, ← summary_regs]
@[simp] theorem summary_settle (c : Nat) : (s.settle c).summary = s.summary := summary_congr (by simp)
theorem vectors_congr {s t : State} (h : t.regs = s.regs) : t.vectors = s.vectors := by
  rw [vectors_regs, h, ← vectors_regs]
@[simp] theorem vectors_settle (c : Nat) : (s.settle c).vectors = s.vectors := vectors_congr (by simp)

@[simp] theorem signal_masked (k : Nat) : (s.signal k).irq.masked = s.irq.masked := by unfold signal; split <;> rfl
@[simp] theorem signal_funcMask (k : Nat) : (s.signal k).irq.funcMask = s.irq.funcMask := by unfold signal; split <;> rfl
theorem foldl_signal_masks (l : List Nat) :
    (l.foldl (fun s k => State.signal s k) s).irq.masked = s.irq.masked ∧
      (l.foldl (fun s k => State.signal s k) s).irq.funcMask = s.irq.funcMask := by
  induction l generalizing s with
  | nil => exact ⟨rfl, rfl⟩
  | cons k l ih => rw [List.foldl_cons]; simpa using ih (s.signal k)
@[simp] theorem settle_masked (c : Nat) : (s.settle c).irq.masked = s.irq.masked := (foldl_signal_masks s _).1
@[simp] theorem settle_funcMask (c : Nat) : (s.settle c).irq.funcMask = s.irq.funcMask := (foldl_signal_masks s _).2

/-- The vectors asserted are those of the registers (R491). -/
@[simp] theorem settle_asserted (c : Nat) : (s.settle c).irq.asserted = s.vectors := rfl
/-- ALERT_N follows the summary (R493). -/
@[simp] theorem settle_alertLow (c : Nat) : (s.settle c).irq.alertLow =
    ((s.summary &&& (s.rd R.GL_ALERT_MASK).toNat) != 0 && decide (4 ≤ s.gf F.BOOT_STATUS_STEP)) := rfl
/-- A message is held only for a vector that is asserted (R492). -/
theorem settle_pending_sub (c : Nat) : (s.settle c).irq.pending &&& (s.settle c).irq.asserted = (s.settle c).irq.pending := by
  show ((_ &&& s.vectors) &&& s.vectors) = _ &&& s.vectors
  rw [Nat.and_assoc, Nat.and_self]

theorem signal_out (k : Nat) : ∃ l : List Nat, (s.signal k).out = l.map Out.msix ++ s.out := by
  unfold signal; split
  · exact ⟨[], rfl⟩
  · exact ⟨[k], rfl⟩
theorem foldl_signal_out (ks : List Nat) :
    ∃ l : List Nat, (ks.foldl (fun s k => State.signal s k) s).out = l.map Out.msix ++ s.out := by
  induction ks generalizing s with
  | nil => exact ⟨[], rfl⟩
  | cons k ks ih =>
    obtain ⟨l, hl⟩ := ih (s.signal k)
    obtain ⟨m, hm⟩ := s.signal_out k
    exact ⟨l ++ m, by rw [List.foldl_cons, hl, hm, List.map_append, List.append_assoc]⟩
/-- Settling sends MSI-X messages only. -/
theorem settle_out (c : Nat) : ∃ l : List Nat, (s.settle c).out = l.map Out.msix ++ s.out := foldl_signal_out s _
/-- What was sent stays sent. -/
theorem mem_settle_out {o : Out} (c : Nat) (h : o ∈ s.out) : o ∈ (s.settle c).out := by
  obtain ⟨l, hl⟩ := s.settle_out c
  rw [hl]; exact List.mem_append_right _ h

end State
end Sys2Proof.Machine
end

