-- ==== Sys2Proof/Laws/Frame.lean ====
section
/-! SUPPORT. Composing the claims' frames: what settling adds, and what a chain of operations keeps. -/

namespace Sys2Proof.Machine
namespace State

/-- The property of a state that settling brings about. -/
theorem settle_IrqOk (s : State) (c : Nat) : (s.settle c).IrqOk := by
  refine ⟨by simp, settle_pending_sub s c, ?_⟩
  rw [settle_alertLow, summary_settle, rd_settle, gf_settle]

theorem keeps_refl (s : State) (p : Area) : s.keeps s p := by cases p <;> simp [keeps]
theorem keeps_trans {s t u : State} {p : Area} (h : s.keeps t p) (k : t.keeps u p) : s.keeps u p := by
  cases p <;> simp_all [keeps]
theorem keeps_settle (s : State) (c : Nat) (p : Area) : s.keeps (s.settle c) p := by
  cases p <;> simp [keeps]
theorem same_settle {s t : State} {c : Nat} {ps : List Area} (h : s.same t ps) : s.same (t.settle c) ps :=
  fun p hp => keeps_trans (h p hp) (keeps_settle t c p)
theorem same_refl (s : State) (ps : List Area) : s.same s ps := fun p _ => keeps_refl s p
theorem same_trans {s t u : State} {ps : List Area} (h : s.same t ps) (k : t.same u ps) : s.same u ps :=
  fun p hp => keeps_trans (h p hp) (k p hp)
theorem same_mono {s t : State} {ps qs : List Area} (h : s.same t ps) (k : ∀ p ∈ ps, p ∈ qs) : s.same t qs :=
  fun p hp => h p (fun hm => hp (k p hm))
theorem regsBut_settle {s t : State} {c : Nat} {l : List Nat} (h : s.regsBut t l) : s.regsBut (t.settle c) l :=
  fun a ha => by rw [rd_settle]; exact h a ha
theorem sends_settle {s t : State} {c : Nat} {l : List Out} (h : t.out = l ++ s.out) : s.sends (t.settle c) l := by
  obtain ⟨vs, hv⟩ := settle_out t c
  exact ⟨vs, by rw [hv, h]⟩

/-- An operation that touches only registers keeps every other part. -/
theorem same_regs {s t : State} (h : t = { s with regs := t.regs, evt := t.evt }) : s.same t [.regs] := by
  intro p hp; rw [h]; cases p <;> simp_all [keeps, hbmByte]
theorem same_wr (s : State) (a : Nat) (v : W64) : s.same (s.wr a v) [.regs] := same_regs rfl
theorem same_wrN (s : State) (a n : Nat) : s.same (s.wrN a n) [.regs] := same_regs rfl
theorem same_sf (s : State) (f : Fld) (n : Nat) : s.same (s.sf f n) [.regs] := same_regs rfl
theorem same_cnt (s : State) (a : Nat) : s.same (s.cnt a) [.regs] := same_regs rfl
theorem same_addCtr (s : State) (w a k : Nat) : s.same (s.addCtr w a k) [.regs] := same_regs rfl
theorem same_raiseMask (s : State) (a m : Nat) : s.same (s.raiseMask a m) [.regs] := same_regs (raiseMask_eq s a m)
theorem same_raise (s : State) (f : Fld) : s.same (s.raise f) [.regs] := same_regs (raise_eq s f)
theorem same_emit (s : State) (o : Out) : s.same (s.emit o) [] := by
  intro p _; cases p <;> simp [keeps, hbmByte]

end State

theorem completes_done {c : Instr} {s x : State} {P : State → Prop} (h : exec c s = done x) (hp : P x.settle) :
    Completes c s P := ⟨_, h, hp⟩
theorem completes_iff {c : Instr} {s t : State} {P : State → Prop} (h : exec c s = .next t) :
    Completes c s P ↔ P t :=
  ⟨fun ⟨u, hu, hp⟩ => by rw [h] at hu; cases hu; exact hp, fun hp => ⟨t, h, hp⟩⟩

end Sys2Proof.Machine
end

