-- ==== Sys2Proof/Laws/Clock.lean ====
section
/-! SUPPORT. What the passing of time changes while the grid has nothing running: the clocks, and nothing else. -/

namespace Sys2Proof.Machine
namespace State

variable (s : State)

theorem ptpRun_eq (k : Nat) : s.ptpRun k = { s with ptp := (s.ptpRun k).ptp } := by unfold ptpRun; split <;> rfl

/-- With the grid idle, letting the clock run moves the two clocks only. -/
theorem advanceTo_idle (d : Nat) (h : s.grid.idle = true) :
    s.advanceTo d = { s with now := max s.now d, ptp := (s.advanceTo d).ptp } := by
  unfold advanceTo
  split
  · have h1 : max s.now d = s.now := by omega
    rw [h1]
  · have h1 : max s.now d = d := by omega
    dsimp only
    rw [if_pos (by rw [ptpRun_eq]; exact h), ptpRun_eq, h1]

variable {s} in
theorem same_advanceTo (d : Nat) (h : s.grid.idle = true) : s.same (s.advanceTo d) [.now, .ptp] := by
  intro p hp; rw [advanceTo_idle s d h]; cases p <;> simp_all [keeps, rd, hbmByte]
variable {s} in
theorem rd_advanceTo (d a : Nat) (h : s.grid.idle = true) : (s.advanceTo d).rd a = s.rd a := by
  rw [advanceTo_idle s d h]; rfl
variable {s} in
theorem now_advanceTo (d : Nat) (h : s.grid.idle = true) : (s.advanceTo d).now = max s.now d := by
  rw [advanceTo_idle s d h]
variable {s} in
theorem out_advanceTo (d : Nat) (h : s.grid.idle = true) : (s.advanceTo d).out = s.out := by
  rw [advanceTo_idle s d h]
variable {s} in
theorem gf_advanceTo (d : Nat) (f : Fld) (h : s.grid.idle = true) : (s.advanceTo d).gf f = s.gf f :=
  gf_congr f (rd_advanceTo d _ h)
/-- A cycle that has passed is no reason to wait. -/
theorem advanceTo_past {s : State} {d : Nat} (h : d ≤ s.now) : s.advanceTo d = s := by unfold advanceTo; rw [if_pos h]

end State
end Sys2Proof.Machine
end

