-- ==== Sys2Proof/Laws/Eth.lean ====
section
/-! SUPPORT. The counters and pauses of an Ethernet port: what each operation changes. -/

namespace Sys2Proof.Machine
namespace State

variable (s : State)

theorem compatAdd_same (p o k : Nat) : s.same (s.compatAdd p o k) [.regs] := same_wrN s _ _
theorem compatAdd_out (p o k : Nat) : (s.compatAdd p o k).out = s.out := rfl
theorem rd_compatAdd_ne (p o k a : Nat) (h : a ≠ 0x700000 + p * 0x100 + o) : (s.compatAdd p o k).rd a = s.rd a := by
  simp [compatAdd, h]

theorem foldl_compat_same (l : List Nat) (p k : Nat) : s.same (l.foldl (fun s c => s.compatAdd p c k) s) [.regs] := by
  induction l generalizing s with
  | nil => exact same_refl s _
  | cons c l ih => exact same_trans (compatAdd_same s p c k) (ih _)
theorem foldl_compat_out (l : List Nat) (p k : Nat) : (l.foldl (fun s c => s.compatAdd p c k) s).out = s.out := by
  induction l generalizing s with
  | nil => rfl
  | cons c l ih => rw [List.foldl_cons, ih]; rfl
theorem rd_foldl_compat (l : List Nat) (p k a : Nat) (h : ∀ c ∈ l, a ≠ 0x700000 + p * 0x100 + c) :
    (l.foldl (fun s c => s.compatAdd p c k) s).rd a = s.rd a := by
  induction l generalizing s with
  | nil => rfl
  | cons c l ih =>
    rw [List.foldl_cons, ih _ (fun d hd => h d (List.mem_cons_of_mem _ hd)), rd_compatAdd_ne]
    exact h c List.mem_cons_self

theorem compatOf_lt (i c : Nat) (h : c ∈ compatOf i) : c < 0x60 := by
  unfold compatOf at h; split at h <;> simp at h <;> omega

/-- A native counter's count changes registers only. -/
theorem same_ethCnt (p i k : Nat) : s.same (s.ethCnt p i k) [.regs] := by
  unfold ethCnt; dsimp only
  refine same_trans ?_ (foldl_compat_same _ _ _ _)
  split
  · exact same_trans (same_wrN s _ _) (same_raiseMask _ _ _)
  · exact same_wrN s _ _
@[simp] theorem ethCnt_out (p i k : Nat) : (s.ethCnt p i k).out = s.out := by
  unfold ethCnt; dsimp only; rw [foldl_compat_out]; split <;> simp
@[simp] theorem ethCnt_eth (p i k : Nat) : (s.ethCnt p i k).eth = s.eth := same_ethCnt s p i k .eth (by simp)
@[simp] theorem ethCnt_now (p i k : Nat) : (s.ethCnt p i k).now = s.now := same_ethCnt s p i k .now (by simp)
@[simp] theorem ethCnt_cut (p i k : Nat) : (s.ethCnt p i k).cut = s.cut := same_ethCnt s p i k .cut (by simp)
@[simp] theorem ethCnt_grid (p i k : Nat) : (s.ethCnt p i k).grid = s.grid := same_ethCnt s p i k .grid (by simp)
@[simp] theorem ethCnt_rings (p i k : Nat) : (s.ethCnt p i k).rings = s.rings := same_ethCnt s p i k .rings (by simp)
@[simp] theorem ethCnt_ethPort (p i k q : Nat) : (s.ethCnt p i k).ethPort q = s.ethPort q := by simp [ethPort]

/-- The counter holds its count, modulo 2^40 (R71). -/
theorem rd_ethCnt_self (p i k : Nat) (hp : p < 16) (hi : i < 52) :
    (s.ethCnt p i k).rd (R.ETH_COUNTER p i) = BitVec.ofNat 64 (((s.rd (R.ETH_COUNTER p i)).toNat + k) % 2 ^ 40) := by
  unfold ethCnt; dsimp only
  rw [rd_foldl_compat _ _ _ _ _ (fun c hc => by have := compatOf_lt i c hc; simp only [R.ETH_COUNTER]; omega)]
  split
  · have e : isRigPortEvents (R.ETH_HALF_STATUS p) = false := isRigPortEvents_lt (by unfold R.ETH_HALF_STATUS; omega)
    have r : reoccOf (R.ETH_HALF_STATUS p) = some (R.ETH_HALF_STATUS p + 0x10) :=
      reoccOf_half (by unfold R.ETH_HALF_STATUS; omega) (by unfold R.ETH_HALF_STATUS; omega)
    simp only [raiseMask, e, Bool.false_and, Bool.false_eq_true, if_false]
    rw [rd_setBitsHw_ne]
    · simp
    · simp only [R.ETH_HALF_STATUS, R.ETH_COUNTER]; omega
    · rw [r]; simp only [R.ETH_HALF_STATUS, R.ETH_COUNTER, ne_eq, Option.some.injEq]; omega
  · simp
/-- A register that is neither the counter, nor a compatibility counter of the port, nor its half-range status, keeps its
value. -/
theorem rd_ethCnt_ne (p i k a : Nat) (h : a ≠ R.ETH_COUNTER p i)
    (hc : ¬ (0x700000 + p * 0x100 ≤ a ∧ a < 0x700000 + p * 0x100 + 0x60)) (h1 : a ≠ R.ETH_HALF_STATUS p)
    (h2 : a ≠ R.ETH_HALF_REOCC p) (hp : p < 16) : (s.ethCnt p i k).rd a = s.rd a := by
  unfold ethCnt; dsimp only
  rw [rd_foldl_compat _ _ _ _ _ (fun c hc' => by have := compatOf_lt i c hc'; omega)]
  split
  · have e : isRigPortEvents (R.ETH_HALF_STATUS p) = false := isRigPortEvents_lt (by unfold R.ETH_HALF_STATUS; omega)
    have r : reoccOf (R.ETH_HALF_STATUS p) = some (R.ETH_HALF_STATUS p + 0x10) :=
      reoccOf_half (by unfold R.ETH_HALF_STATUS; omega) (by unfold R.ETH_HALF_STATUS; omega)
    simp only [raiseMask, e, Bool.false_and, Bool.false_eq_true, if_false]
    rw [rd_setBitsHw_ne _ _ _ _ h1]
    · simp [h]
    · rw [r]; simp only [R.ETH_HALF_STATUS, R.ETH_HALF_REOCC, ne_eq, Option.some.injEq] at *; omega
  · simp [h]
theorem gf_ethCnt_ne (p i k : Nat) (f : Fld) (h : f.off < 0x600000) (hp : p < 16) : (s.ethCnt p i k).gf f = s.gf f := by
  apply gf_congr; apply rd_ethCnt_ne <;> (try simp only [R.ETH_COUNTER, R.ETH_HALF_STATUS, R.ETH_HALF_REOCC]) <;> omega

end State
end Sys2Proof.Machine
end

