-- ==== Sys2Proof/Laws/Rigging.lean ====
section
/-! SUPPORT. Which parts of the state the shared operations on memory and links can change: the Hold and HBM, a site's
SRAM, a link's queues, an engine's read or write of a global or host address. -/

namespace Sys2Proof.Machine
namespace State

/-! ### Composing -/

theorem same_foldl {β : Type} {f : State → β → State} {ps : List Area} (h : ∀ (s : State) (b : β), s.same (f s b) ps) (l : List β)
    (s : State) : s.same (l.foldl f s) ps := by
  induction l generalizing s with
  | nil => exact same_refl s ps
  | cons b l ih => exact same_trans (h s b) (ih _)
theorem same_ite {s a b : State} {c : Prop} [Decidable c] {ps : List Area} (h : s.same a ps) (k : s.same b ps) :
    s.same (if c then a else b) ps := by split <;> assumption
theorem same_note (s : State) (f : Fld) (c : Nat) : s.same (s.note f c) [.regs] := same_regs (note_eq s f c)
theorem same_clearEvents (s : State) (a v h : Nat) : s.same (s.clearEvents a v h) [.regs] :=
  same_regs (clearEvents_eq s a v h)
theorem same_hbmWrite (s : State) (a : Nat) (d : List Byte) (pz : Nat) : s.same (s.hbmWrite a d pz) [.hbm] := by
  intro p hp; cases p <;> simp_all [keeps]
theorem same_modGrid (s : State) (f : Grid → Grid) : s.same (s.modGrid f) [.grid] := by
  intro p hp; cases p <;> simp_all [keeps, modGrid, rd, hbmByte]
theorem same_modRig (s : State) (n : Nat) (f : RigPort → RigPort) : s.same (s.modRig n f) [.rig] := by
  intro p hp; cases p <;> simp_all [keeps, modRig, rd, hbmByte]
theorem same_modEth (s : State) (n : Nat) (f : EthPort → EthPort) : s.same (s.modEth n f) [.eth] := by
  intro p hp; cases p <;> simp_all [keeps, hbmByte]
theorem same_modRing (s : State) (n : Nat) (f : RingEng → RingEng) : s.same (s.modRing n f) [.rings] := by
  intro p hp; cases p <;> simp_all [keeps, hbmByte]

theorem same_grid_upd (s : State) (x : Grid) : s.same { s with grid := x } [.grid] := by
  intro p hp; cases p <;> simp_all [keeps, rd, hbmByte]
theorem same_rig_upd (s : State) (x : Rig) : s.same { s with rig := x } [.rig] := by
  intro p hp; cases p <;> simp_all [keeps, rd, hbmByte]
theorem same_recov_upd (s : State) (x : Rec) : s.same { s with recov := x } [.recov] := by
  intro p hp; cases p <;> simp_all [keeps, rd, hbmByte]
theorem same_boot_upd (s : State) (x : Boot) : s.same { s with boot := x } [.boot] := by
  intro p hp; cases p <;> simp_all [keeps, rd, hbmByte]
theorem same_hold_upd (s : State) (x : List (Nat × HoldSet)) : s.same { s with hold := x } [.hold] := by
  intro p hp; cases p <;> simp_all [keeps, rd, hbmByte]
theorem same_cut_upd (s : State) (x : Cut) : s.same { s with cut := x } [.cut] := by
  intro p hp; cases p <;> simp_all [keeps, rd, hbmByte]
theorem same_hly_upd (s : State) (x : Hly) : s.same { s with hly := x } [.hly] := by
  intro p hp; cases p <;> simp_all [keeps, rd, hbmByte]
theorem same_teu_upd (s : State) (x : Teu) : s.same { s with teu := x } [.teu] := by
  intro p hp; cases p <;> simp_all [keeps, rd, hbmByte]
theorem same_job_upd (s : State) (x : Jobs) : s.same { s with job := x } [.job] := by
  intro p hp; cases p <;> simp_all [keeps, rd, hbmByte]
theorem same_pwr_upd (s : State) (x : Pwr) : s.same { s with pwr := x } [.pwr] := by
  intro p hp; cases p <;> simp_all [keeps, rd, hbmByte]

/-! ### Refusals, the Hold -/

theorem same_raiseMask' (s : State) (a m : Nat) (ps : List Area) (h : Area.regs ∈ ps) : s.same (s.raiseMask a m) ps :=
  same_mono (same_raiseMask s a m) (by simpa using h)
theorem same_decodeRefuse (s : State) (a b c : Nat) : s.same (s.decodeRefuse a b c) [.regs] := by
  unfold decodeRefuse; dsimp only
  split
  · exact same_trans (same_trans (same_trans (same_wrN _ _ _) (same_sf _ _ _)) (same_raiseMask _ _ _)) (same_addCtr _ _ _ _)
  · exact same_trans (same_raiseMask _ _ _) (same_addCtr _ _ _ _)
theorem same_memCnt (s : State) (d i k : Nat) : s.same (s.memCnt d i k) [.regs] := same_addCtr _ _ _ _
theorem same_holdLine (s : State) (die line o n : Nat) (w sv : Bool) : s.same (s.holdLine die line o n w sv) [.regs, .hold] := by
  unfold holdLine; dsimp only
  split
  · exact same_trans (same_mono (same_memCnt s _ _ _) (by simp)) (same_mono (same_hold_upd _ _) (by simp))
  · exact same_trans (same_trans (same_mono (same_memCnt s _ _ _) (by simp)) (same_mono (same_memCnt _ _ _ _) (by simp)))
      (same_mono (same_hold_upd _ _) (by simp))
theorem same_holdRange (die : Nat) (w sv : Bool) (fuel : Nat) : ∀ (x n : Nat) (s : State),
    s.same (holdRange die w sv fuel x n s) [.regs, .hold] := by
  induction fuel with
  | zero => exact fun _ _ s => same_refl s _
  | succ f ih =>
    intro x n s; unfold holdRange
    split
    · exact same_refl s _
    · exact same_trans (same_holdLine s _ _ _ _ _ _) (ih _ _ _)
theorem same_holdTouch (s : State) (off n : Nat) (w sv : Bool) : s.same (s.holdTouch off n w sv) [.regs, .hold] :=
  same_holdRange _ _ _ _ _ _ _
theorem same_memErrAddr (s : State) (off : Nat) (b : Bool) : s.same (s.memErrAddr off b) [.regs] := by
  unfold memErrAddr; dsimp only; split
  · exact same_refl s _
  · exact same_wrN _ _ _

/-! ### A site's SRAM -/

theorem same_markRow (s : State) (a b : Nat) (p : Bool) : s.same (s.markRow a b p) [.grid] := same_modGrid _ _
theorem same_rowWrite (s : State) (site row : Nat) (d : List Byte) (e : Nat) (p : Bool) :
    s.same (s.rowWrite site row d e p) [.grid] := by
  unfold rowWrite; dsimp only
  split
  · exact same_refl s _
  · split
    · exact same_trans (same_modGrid s _) (same_markRow _ _ _ _)
    · split
      · exact same_trans (same_modGrid s _) (same_markRow _ _ _ _)
      · exact same_modGrid s _
theorem same_notePoison (s : State) (a b c : Nat) : s.same (s.notePoison a b c) [.regs] := by
  unfold notePoison gridCnt sramErr
  exact same_trans (same_trans (same_addCtr _ _ _ _) (same_wrN _ _ _)) (same_raise _ _)
theorem same_setRun (s : State) (k : Nat) (r : Run) : s.same (s.setRun k r) [.grid] := same_modGrid _ _
theorem same_modRun (s : State) (k : Nat) (f : Run → Run) : s.same (s.modRun k f) [.grid] := by
  unfold modRun; split
  · exact same_setRun _ _ _
  · exact same_refl _ _
theorem same_modTile (s : State) (k t : Nat) (f : Tile → Tile) : s.same (s.modTile k t f) [.grid] := same_modRun _ _ _
theorem same_eraseBank (s : State) (a b : Nat) : s.same (s.eraseBank a b) [.regs, .grid] := by
  unfold eraseBank; dsimp only
  exact same_trans (same_foldl (fun s _ => same_mono (same_modGrid s _) (by simp)) _ _)
    (same_mono (same_addCtr _ _ _ _) (by simp))
theorem same_erases (s : State) (k n a : Nat) (t : Tile) : s.same (s.erases k n a t) [.regs, .grid] := by
  unfold erases
  refine same_foldl (fun s e => ?_) _ _
  split
  · exact same_trans (same_eraseBank _ _ _) (same_mono (same_modTile _ _ _ _) (by simp))
  · exact same_refl _ _
theorem same_eraseDue (s : State) (a : Nat) : s.same (s.eraseDue a) [.regs, .grid] := by
  unfold eraseDue
  refine same_foldl (fun s u => ?_) _ _
  split
  · exact same_erases _ _ _ _ _
  · exact same_refl _ _
theorem same_lateWrite (s : State) (a b c : Nat) : s.same (s.lateWrite a b c) [.regs] := by
  unfold lateWrite; dsimp only
  split
  · exact same_note _ _ _
  · exact same_trans (same_wrN _ _ _) (same_note _ _ _)
theorem same_sidePerform (s : State) (a b : Nat) (d : List Byte) (e : Nat) (p : Bool) :
    s.same (s.sidePerform a b d e p) [.regs, .grid] := by
  unfold sidePerform; dsimp only
  have h : ∀ x : State, x.same (if p then x.notePoison a (sramKind a) b else x) [.regs, .grid] := by
    intro x; split
    · exact same_mono (same_notePoison _ _ _ _) (by simp)
    · exact same_refl _ _
  refine same_trans (same_trans (same_eraseDue s a) (h _)) (same_foldl (fun s i => ?_) _ _)
  split
  · exact same_mono (same_rowWrite _ _ _ _ _ _) (by simp)
  · exact same_refl _ _
theorem same_sideUnits (site src fuel : Nat) : ∀ (off : Nat) (d : List Byte) (pz dn : Nat) (s : State),
    s.same (sideUnits site src fuel off d pz dn s).2 [.regs, .grid] := by
  induction fuel with
  | zero => exact fun _ _ _ _ s => same_refl s _
  | succ f ih =>
    intro off d pz dn s
    unfold sideUnits
    split
    · exact same_refl s _
    · dsimp only
      refine same_trans ?_ (ih _ _ _ _ _)
      split
      · exact same_trans (same_eraseDue s _) (same_mono (same_lateWrite _ _ _ _) (by simp))
      · exact same_trans (same_eraseDue s _) (same_sidePerform _ _ _ _ _ _)
theorem same_siteWrite (s : State) (src rec addr die row col off : Nat) (d : List Byte) (pz : Nat) :
    s.same (s.siteWrite src rec addr die row col off d pz).2 [.regs, .grid] := by
  unfold siteWrite; dsimp only
  split
  · exact same_mono (same_decodeRefuse _ _ _ _) (by simp)
  · exact same_sideUnits _ _ _ _ _ _ _ _
theorem same_siteRead (s : State) (src addr die row col off n : Nat) :
    s.same (s.siteRead src addr die row col off n).2.2.2 [.regs, .grid] := by
  unfold siteRead; dsimp only
  split
  · exact same_mono (same_decodeRefuse _ _ _ _) (by simp)
  · split
    · exact same_eraseDue _ _
    · exact same_eraseDue _ _

/-! ### Links -/

theorem same_rekey (s : State) (n : Nat) (b : Bool) : s.same (s.rekey n b) [.regs, .rig] := by
  unfold rekey
  refine same_ite ?_ (same_refl s _)
  exact same_trans (same_mono (same_modRig s n _) (by simp)) (same_mono (same_addCtr _ _ _ _) (by simp))
theorem same_crossed (s : State) (n : Nat) (b : Bool) : s.same (s.crossed n b) [.rig] := by
  unfold crossed; split
  · exact same_modRig _ _ _
  · exact same_refl _ _
theorem same_sendWire (s : State) (n : Nat) (p : Pkt) : s.same (s.sendWire n p) [.regs, .rig] := by
  unfold sendWire; dsimp only
  refine same_trans (same_trans (same_trans (same_trans (same_ite (same_rekey s n true) (same_refl s _))
    (same_mono (same_emit _ _) (by simp))) (same_mono (same_crossed _ _ _) (by simp)))
    (same_mono (same_cnt _ _) (by simp))) (same_mono (same_addCtr _ _ _ _) (by simp))
theorem same_sendCtl (s : State) (n a b : Nat) : s.same (s.sendCtl n a b) [.regs, .rig] := by
  unfold sendCtl; dsimp only
  exact same_trans (same_trans (same_ite (same_rekey s n true) (same_refl s _)) (same_mono (same_emit _ _) (by simp)))
    (same_mono (same_crossed _ _ _) (by simp))
theorem same_syncStall (s : State) (n : Nat) : s.same (s.syncStall n) [.regs, .rig] := by
  unfold syncStall; dsimp only
  exact same_trans (same_trans (same_trans (same_mono (same_modRig s _ _) (by simp)) (same_mono (same_addCtr _ _ _ _) (by simp)))
    (same_mono (same_addCtr _ _ _ _) (by simp))) (same_mono (same_addCtr _ _ _ _) (by simp))
theorem same_requestSent (s : State) (p : Pkt) : s.same (s.requestSent p) [.rig] := by
  unfold requestSent; split
  · exact same_refl _ _
  · split
    · exact same_rig_upd _ _
    · exact same_refl _ _
theorem same_pump (s : State) (n : Nat) : s.same (s.pump n) [.regs, .rig] := by
  unfold pump; dsimp only
  refine same_ite (same_refl s _) (same_trans ?_ (same_syncStall _ _))
  refine same_trans ?_ (same_mono (same_sf _ _ _) (by simp))
  refine same_trans ?_ (same_foldl (fun s p =>
    same_trans (same_mono (same_requestSent s p) (by simp)) (same_sendWire _ n p)) _ _)
  exact same_mono (same_modRig _ _ _) (by simp)
theorem same_enqueue (s : State) (n : Nat) (p : Pkt) : s.same (s.enqueue n p) [.regs, .rig] := by
  unfold enqueue; dsimp only
  exact same_trans (same_mono (same_modRig s _ _) (by simp)) (same_pump _ _)
theorem same_rigCnt (s : State) (i : Nat) : s.same (s.rigCnt i) [.regs] := by
  exact same_cnt _ _
theorem same_opError (s : State) (a b : Nat) : s.same (s.opError a b) [.regs] := by
  unfold opError; extract_lets clear rec_ s1
  have h : s.same s1 [.regs] := by
    show s.same (if (clear && rec_) then _ else _) _
    split
    · exact same_trans (same_wrN _ _ _) (same_sf _ _ _)
    · exact same_refl _ _
  clear_value s1
  have k : ∀ (i : Nat) (f : Fld), s.same ((s1.rigCnt i).raise f) [.regs] :=
    fun i f => same_trans h (same_trans (same_rigCnt _ _) (same_raise _ _))
  exact same_ite (k _ _) (same_ite (k _ _) (same_ite (k _ _) (same_ite (k _ _) h)))
theorem same_endFor (s : State) (i : Issuer) (st : Nat) (d : List Byte) (pz a : Nat) (x : List Byte) :
    s.same (s.endFor i st d pz a x) [.rig, .recov] := by
  unfold endFor; split
  all_goals first
    | exact same_refl _ _
    | exact same_mono (same_recov_upd _ _) (by simp)
    | exact same_mono (same_rig_upd _ _) (by simp)
theorem same_takeEnded (s : State) (i : Issuer) (x : Option (List Byte)) : s.same (s.takeEnded i x).2 [.rig] := by
  unfold takeEnded; split
  · exact same_refl _ _
  · exact same_rig_upd _ _
theorem same_syncOps (s : State) : s.same s.syncOps [.regs] := same_sf _ _ _
/-- A request packet changes registers and link engines, or ends at once for its issuer. -/
theorem same_issue (s : State) (i : Issuer) (die op addr len aux fl : Nat) (pl : List Byte) (bank : Option Nat) :
    s.same (s.issue i die op addr len aux fl pl bank) [.regs, .rig, .recov] := by
  unfold issue; dsimp only
  split
  · exact same_trans (same_mono (same_opError s _ _) (by simp)) (same_mono (same_endFor _ _ _ _ _ _ _) (by simp))
  · refine same_ite (same_mono (same_rig_upd s _) (by simp)) ?_
    refine same_trans (same_trans (same_trans (same_mono (same_rig_upd s _) (by simp)) (same_mono (same_syncOps _) (by simp)))
      (same_mono (same_cnt _ _) (by simp))) (same_mono (same_enqueue _ _ _) (by simp))

theorem same_issueWaiting (s : State) : s.same s.issueWaiting [.regs, .rig, .recov] := by
  unfold issueWaiting
  exact same_trans (same_mono (same_rig_upd s _) (by simp)) (same_foldl (fun s w => same_issue s _ _ _ _ _ _ _ _ _) _ _)

/-! ### Global addresses -/

theorem same_localWrite (s : State) (src : Src) (a : Nat) (d : List Byte) (pz : Nat) (sv : Bool) :
    s.same (s.localWrite src a d pz sv).2 [.regs, .hbm, .hold, .grid] := by
  unfold localWrite; split
  · exact same_trans (same_mono (same_holdTouch s _ _ _ _) (by simp)) (same_mono (same_hbmWrite _ _ _ _) (by simp))
  · exact same_mono (same_siteWrite _ _ _ _ _ _ _ _ _ _) (by simp)
  · exact same_mono (same_decodeRefuse _ _ _ _) (by simp)
  · exact same_mono (same_decodeRefuse _ _ _ _) (by simp)
theorem same_localRead (s : State) (src : Src) (a n : Nat) (sv : Bool) :
    s.same (s.localRead src a n sv).2.2.2 [.regs, .hold, .grid] := by
  unfold localRead; split
  · exact same_mono (same_holdTouch s _ _ _ _) (by simp)
  · exact same_mono (same_siteRead _ _ _ _ _ _ _ _) (by simp)
  · exact same_mono (same_decodeRefuse _ _ _ _) (by simp)
  · exact same_mono (same_decodeRefuse _ _ _ _) (by simp)
/-- Data without a poisoned byte have no POISON bit. -/
@[simp] theorem poisonBits_nil (lo n : Nat) : poisonBits [] lo n = 0 := by
  have h (l : List Nat) (m : Nat) : l.foldl (fun m _ => m) m = m := by induction l <;> simp_all
  simp [poisonBits, h]
/-- What an engine's write of host memory or of a global address can change. -/
theorem same_dmaWrite (s : State) (i : Issuer) (a : Nat) (d : List Byte) (rel : Bool) (bad : List Nat) :
    s.same (s.dmaWrite i a d rel bad) [.regs, .hbm, .hold, .grid, .rig, .recov] := by
  unfold dmaWrite; split
  · exact same_mono (same_emit _ _) (by simp)
  · split
    · exact same_mono (same_localWrite _ _ _ _ _ _) (by simp)
    · exact same_foldl (fun s p => same_mono (same_issue _ _ _ _ _ _ _ _ _ _) (by simp)) _ _
/-- What an engine's read can change: the Hold and its counters, or what a refusal records. -/
theorem same_dmaRead (s : State) (a n : Nat) (x : Option (List Byte)) :
    s.same (s.dmaRead a n x).2 [.regs, .hold, .grid] := by
  unfold dmaRead; split
  · exact same_refl _ _
  · split
    · exact same_localRead _ _ _ _ _
    · exact same_refl _ _
/-- A read of host memory changes nothing. -/
theorem dmaRead_host {s : State} {a n : Nat} {x : Option (List Byte)} (h : a.testBit 63 = false) :
    s.dmaRead a n x = (x.map fun l => slice l 0 n, s) := by
  simp [dmaRead, target, h]
/-- A write of host memory is sent out and changes nothing else. -/
theorem dmaWrite_host {s : State} {i : Issuer} {a : Nat} {d : List Byte} {rel : Bool} (h : a.testBit 63 = false) :
    s.dmaWrite i a d rel = s.emit (.hostWrite (a % 2 ^ 63) d) := by simp [dmaWrite, target, h]
/-- A poisoned unit of it goes in a TLP with EP set (R418). -/
theorem dmaWrite_host_ep {s : State} {i : Issuer} {a : Nat} {d : List Byte} {rel : Bool} {bad : List Nat}
    (h : a.testBit 63 = false) : s.dmaWrite i a d rel bad = s.emit (.hostWrite (a % 2 ^ 63) d (poisonBits bad 0 d.length)) := by
  simp [dmaWrite, target, h]

/-! ### The ends of commands -/

theorem same_syncGrid (s : State) : s.same s.syncGrid [.regs] := by
  unfold syncGrid; dsimp only
  refine same_foldl (fun s d => ?_) _ _
  split
  · exact same_trans (same_wrN _ _ _) (same_wrN _ _ _)
  · exact same_wrN _ _ _

end State

/-- A command that met no failure of R385 ends as any other. -/
theorem doneF_eq {s : State} (h : s.boot.failing = false) : doneF s = done s := by simp [doneF, h]

end Sys2Proof.Machine
end

