-- ==== Sys2Proof/Laws/Done.lean ====
section
/-! SUPPORT. How a command ends: what the last steps shared by the commands of the grid and of the job dispatcher change,
and the clock after any wait. -/

namespace Sys2Proof.Machine
namespace State

/-- The clock after a wait, whatever runs in it. -/
theorem now_advanceTo_max (s : State) (d : Nat) : (s.advanceTo d).now = max s.now d := by
  unfold advanceTo
  split
  · omega
  · dsimp only; split
    · simp; omega
    · have := (same_syncGrid { (arithRun (d / 2 - (s.ptpRun (d - s.now)).now / 2) (s.ptpRun (d - s.now))) with now := d }) .now
        (by simp)
      rw [this]; simp only; omega

/-- A register that no turn of a loop changes reads as before it. -/
theorem rd_foldl {β : Type} {f : State → β → State} {a : Nat} (l : List β) (h : ∀ s b, b ∈ l → (f s b).rd a = s.rd a)
    (s : State) : (l.foldl f s).rd a = s.rd a := by
  induction l generalizing s with
  | nil => rfl
  | cons b l ih => rw [List.foldl_cons, ih (fun s c hc => h s c (List.mem_cons_of_mem b hc)), h s b List.mem_cons_self]

/-- The grid's registers follow it; every other register reads as before. -/
theorem rd_syncGrid_ne {s : State} {a : Nat} (h : a ∉ dieRegs) : s.syncGrid.rd a = s.rd a := by
  unfold syncGrid
  dsimp only
  refine rd_foldl _ (fun s d hd => ?_) s
  have hn : a ≠ R.GRID_STATUS d ∧ a ≠ R.GRID_PLAN_CYCLE d := by
    simp only [dieRegs, List.mem_cons, not_or] at h
    obtain ⟨h0, h1, h2, h3, h4, h5, h6, h7, -⟩ := h
    have hd' : d < 4 := by rwa [List.mem_range] at hd
    have : d = 0 ∨ d = 1 ∨ d = 2 ∨ d = 3 := by omega
    rcases this with rfl | rfl | rfl | rfl <;> exact ⟨by assumption, by assumption⟩
  split
  · rw [rd_wrN, if_neg hn.2, rd_wrN, if_neg hn.1]
  · rw [rd_wrN, if_neg hn.1]

/-- JOB_STATUS follows the dispatcher; every other register reads as before. -/
theorem rd_syncJob_ne {s : State} {a : Nat} (h : a ≠ R.JOB_STATUS) : s.syncJob.rd a = s.rd a := by
  have hf : ∀ (s : State) (f : Fld) n, f.off = R.JOB_STATUS → (s.sf f n).rd a = s.rd a := by
    intro s f n hf; unfold sf; rw [rd_wr, hf, if_neg h]
  unfold syncJob
  dsimp only
  split <;> simp only [hf _ F.JOB_STATUS_QUEUE_OCC _ rfl, hf _ F.JOB_STATUS_RUNNING _ rfl, hf _ F.JOB_STATUS_TRAINING _ rfl,
    hf _ F.JOB_STATUS_PLAN _ rfl]

theorem same_syncJob (s : State) : s.same s.syncJob [.regs] := by
  unfold syncJob; dsimp only
  split
  · exact same_trans (same_trans (same_sf _ _ _) (same_sf _ _ _)) (same_sf _ _ _)
  · exact same_trans (same_trans (same_trans (same_sf _ _ _) (same_sf _ _ _)) (same_sf _ _ _)) (same_sf _ _ _)

end State

/-- A command of the grid that met no failure of R385 ends with its registers following it. -/
theorem doneG_eq {s : State} (h : s.boot.failing = false) : doneG s = done s.syncGrid := by
  have k : s.syncGrid.boot = s.boot := State.same_syncGrid s .boot (by simp)
  exact doneF_eq (by rw [k]; exact h)

/-- A command that reaches the dispatcher and met no failure of R385 ends with both sets of registers following. -/
theorem doneJ_eq {s : State} (h : s.boot.failing = false) : doneJ s = done s.syncJob.syncGrid := by
  have k : s.syncJob.boot = s.boot := State.same_syncJob s .boot (by simp)
  exact doneG_eq (by rw [k]; exact h)

end Sys2Proof.Machine
end

