-- ==== Sys2Proof/Laws/Halyard.lean ====
section
/-! SUPPORT. Which parts of the state the operations of the Halyard side and of the serving path can change, and what
the ledger and the tables of contexts hold after them. -/

namespace Sys2Proof.Machine
namespace State

/-! ### Counters and occupancies -/

theorem same_hlyCnt (s : State) (i : Nat) : s.same (s.hlyCnt i) [.regs] := same_cnt _ _
theorem same_cutCnt (s : State) (i k : Nat) : s.same (s.cutCnt i k) [.regs] := same_addCtr _ _ _ _
theorem same_teuCnt (s : State) (i k : Nat) : s.same (s.teuCnt i k) [.regs] := same_addCtr _ _ _ _
theorem same_secCnt (s : State) (i k : Nat) : s.same (s.secCnt i k) [.regs] := same_addCtr _ _ _ _
theorem same_recCnt (s : State) (i k : Nat) : s.same (s.recCnt i k) [.regs] := same_addCtr _ _ _ _
theorem same_syncLedger (s : State) : s.same s.syncLedger [.regs] := same_trans (same_sf _ _ _) (same_sf _ _ _)
theorem same_syncCut (s : State) : s.same s.syncCut [.regs] :=
  same_trans (same_trans (same_sf _ _ _) (same_sf _ _ _)) (same_sf _ _ _)

/-! ### Tables of contexts -/

theorem same_setReq (s : State) (k : Nat) (c : ReqCtx) : s.same (s.setReq k c) [.cut] := same_cut_upd _ _
theorem same_delReq (s : State) (k : Nat) : s.same (s.delReq k) [.cut] := same_cut_upd _ _
theorem same_setUpd (s : State) (k : Nat) (u : UpdCtx) : s.same (s.setUpd k u) [.hly] := same_hly_upd _ _
theorem same_setLine (s : State) (k : Nat) (l : CacheLine) : s.same (s.setLine k l) [.cut] := same_cut_upd _ _
theorem same_setMiss (s : State) (k : Nat) (m : MissSlot) : s.same (s.setMiss k m) [.cut] := same_cut_upd _ _
theorem same_touch (s : State) (k : Nat) (l : CacheLine) : s.same (s.touch k l) [.cut] :=
  same_trans (same_setLine _ _ _) (same_cut_upd _ _)
theorem same_walkAdvance (s : State) : s.same s.walkAdvance [.cut] := by
  unfold walkAdvance; dsimp only
  exact same_ite (same_refl _ _) (same_ite (same_cut_upd _ _) (same_cut_upd _ _))
theorem same_markReady (s : State) (k : Nat) (c : ReqCtx) (a : Nat) : s.same (s.markReady k c a) [.cut] := same_setReq _ _ _
theorem same_unpin (s : State) (t e : Nat) : s.same (s.unpin t e) [.cut] := by
  unfold unpin; split
  · exact same_setLine _ _ _
  · exact same_refl _ _

/-! ### The ledger -/

theorem same_ledgerFree (s : State) (i : Nat) : s.same (s.ledgerFree i) [.hly, .regs] :=
  same_trans (same_mono (same_hly_upd _ _) (by simp)) (same_mono (same_syncLedger _) (by simp))
theorem same_ledgerEcho (s : State) (i : Nat) (a : Answer) : s.same (s.ledgerEcho i a) [.hly, .regs] := by
  unfold ledgerEcho; split
  · exact same_refl _ _
  · exact same_trans (same_mono (same_hly_upd _ _) (by simp)) (same_mono (same_syncLedger _) (by simp))
/-- What offering an answer can change: its port's queue, or the counter and the ledger where the link is down. -/
theorem same_offerAnswer (s : State) (p id : Nat) (c : Carriage) (o k : Nat) (b : List Byte) (e : Bool) :
    s.same (s.offerAnswer p id c o k b e) [.eth, .hly, .regs] := by
  unfold offerAnswer; dsimp only
  refine same_ite (same_mono (same_modEth _ _ _) (by simp)) ?_
  exact same_ite (same_mono (same_ethCnt _ _ _ _) (by simp))
    (same_trans (same_mono (same_ethCnt _ _ _ _) (by simp)) (same_mono (same_ledgerEcho _ _ _) (by simp)))
theorem same_sendEcho (s : State) (p i : Nat) (c : Carriage) : s.same (s.sendEcho p i c) [.eth, .hly, .regs] := by
  unfold sendEcho; split
  · exact same_refl _ _
  · exact same_trans (same_mono (same_hlyCnt _ _) (by simp)) (same_offerAnswer _ _ _ _ _ _ _ _)
theorem same_controlAck (s : State) (m : CtlMsg) (st : Nat) (r : List Byte) :
    s.same (s.controlAck m st r) [.eth, .hly, .regs] := same_offerAnswer _ _ _ _ _ _ _ _

/-- LEDGER_OCC is all the register change of an occupancy update. -/
theorem rd_syncLedger_ne {s : State} {a : Nat} (h : a ≠ R.HLY_LEDGER_OCC) : s.syncLedger.rd a = s.rd a := by
  simp [syncLedger, F.HLY_LEDGER_OCC_ECHO, F.HLY_LEDGER_OCC_OPEN, h]
@[simp] theorem syncLedger_hly (s : State) : s.syncLedger.hly = s.hly := by simp [syncLedger]
@[simp] theorem syncLedger_cut (s : State) : s.syncLedger.cut = s.cut := by simp [syncLedger]
@[simp] theorem syncLedger_out (s : State) : s.syncLedger.out = s.out := by simp [syncLedger]
@[simp] theorem syncCut_cut (s : State) : s.syncCut.cut = s.cut := by simp [syncCut]
@[simp] theorem syncCut_hly (s : State) : s.syncCut.hly = s.hly := by simp [syncCut]
@[simp] theorem syncCut_out (s : State) : s.syncCut.out = s.out := by simp [syncCut]
/-- QUEUE_OCC and PIN_OCC are all the register changes of an occupancy update of the serving path. -/
theorem rd_syncCut_ne {s : State} {a : Nat} (h : a ≠ R.CUT_QUEUE_OCC) (k : a ≠ R.CUT_PIN_OCC) :
    s.syncCut.rd a = s.rd a := by
  simp [syncCut, F.CUT_PIN_OCC_PINNED, F.CUT_PIN_OCC_ASSEMBLY, F.CUT_QUEUE_OCC_MISSQ, h, k]

/-! ### The order of the queues -/

/-- A prefix test that holds of every element takes the whole list. -/
theorem takeWhile_all {p : Nat → Bool} : ∀ {q : List Nat}, (∀ k ∈ q, p k = true) → q.takeWhile p = q ∧ q.dropWhile p = []
  | [], _ => ⟨rfl, rfl⟩
  | a :: t, h => by
    have ha := h a (by simp)
    obtain ⟨h1, h2⟩ := takeWhile_all (q := t) (fun k hk => h k (by simp [hk]))
    simp [ha, h1, h2]
/-- A request that comes after every queued one takes the last place. -/
theorem queueIn_last {s : State} {q : List Nat} {key r p : Nat} (h : ∀ k ∈ q, s.after r p k = false) :
    s.queueIn q key r p = q ++ [key] := by
  obtain ⟨h1, h2⟩ := takeWhile_all (p := fun k => !s.after r p k) (q := q) (fun k hk => by simp [h k hk])
  simp only [queueIn, h1, h2]
/-- A queue within its 1,024 places holds no request that met it full. -/
theorem overflow_none {s : State} {q : List Nat} (h : q.length ≤ 1024) : s.overflow q = [] := by
  simp [overflow, List.drop_eq_nil_of_le h]
@[simp] theorem flushSamples_self {s : State} (h : s.teu.queue.length ≤ 1024) : s.flushSamples = s := by
  simp [flushSamples, overflow_none h]
@[simp] theorem flushBridge_self {s : State} (h : s.cut.bridgeQ.length ≤ 1024) : s.flushBridge = s := by
  simp [flushBridge, overflow_none h]

/-- A freed entry is gone. -/
theorem entry_ledgerFree_self (s : State) (i : Nat) : (s.ledgerFree i).entry i = none := by
  simp [ledgerFree, entry, tfind_tdel]
/-- Every other entry stays. -/
theorem entry_ledgerFree_ne {s : State} {i k : Nat} (h : k ≠ i) : (s.ledgerFree i).entry k = s.entry k := by
  simp [ledgerFree, entry, tfind_tdel, h]

/-- What a lost entry can change (R419). -/
theorem same_ledgerLost (s : State) (i : Nat) : s.same (s.ledgerLost i) [.hly, .regs] := by
  unfold ledgerLost; split
  · exact same_trans (same_trans (same_ledgerFree s i) (same_mono (same_cnt _ _) (by simp)))
      (same_mono (same_raise _ _) (by simp))
  · exact same_refl _ _

/-! ### Uncorrectable errors -/

/-- Path code errors change registers and nothing else (R414). -/
theorem same_pathErrs (s : State) (es : List Bool) : s.same (s.pathErrs es) [.regs] := by
  unfold pathErrs
  refine same_foldl (fun s e => ?_) _ _
  cases e
  · exact same_cnt _ _
  · exact same_trans (same_cnt _ _) (same_raise _ _)
/-- What a lost line of the feature cache can change (R419). -/
theorem same_lineLost (s : State) (ln : Nat) (l : CacheLine) (p : Nat) : s.same (s.lineLost ln l p) [.cut, .regs] := by
  unfold lineLost; dsimp only
  have h : s.same ((s.cnt (R.SEC_COUNT 8)).raise F.SEC_EVENTS_FCACHE_UNCORR) [.cut, .regs] :=
    same_trans (same_mono (same_cnt s _) (by simp)) (same_mono (same_raise _ _) (by simp))
  split
  · exact same_trans h (same_mono (same_cut_upd _ _) (by simp))
  · split
    · exact same_trans h (same_mono (same_setLine _ _ _) (by simp))
    · exact h

/-! ### UPDATE rows -/

theorem same_writeRow (s : State) (k : Nat) (l : CacheLine) :
    s.same (s.writeRow k l) [.regs, .hbm, .hold, .grid, .rig, .recov] := same_dmaWrite _ _ _ _ _ _
theorem same_commitRow (s : State) (u : UpdCtx) (e : Nat) :
    s.same (s.commitRow u e) [.cut, .regs, .hbm, .hold, .grid, .rig, .recov] := by
  unfold commitRow; split
  · exact same_refl _ _
  · exact same_trans (same_trans (same_mono (same_setLine _ _ _) (by simp)) (same_mono (same_cutCnt _ _ _) (by simp)))
      (same_mono (same_writeRow _ _ _) (by simp))

end State
end Sys2Proof.Machine
end

