-- ==== Sys2Proof/Laws/Memory.lean ====
section
/-! SUPPORT. The memories of the block: a read after a write, a write leaves every other place alone, and every operation
keeps the canonical form. -/

namespace Sys2Proof.Machine

/-! ### Tables -/

theorem twf_foldl {α β : Type} [DecidableEq α] {d : Nat → α} {f : List (Nat × α) → β → List (Nat × α)}
    (h : ∀ t b, twf d t = true → twf d (f t b) = true) (l : List β) {t : List (Nat × α)} (ht : twf d t = true) :
    twf d (l.foldl f t) = true := by
  induction l generalizing t with
  | nil => exact ht
  | cons b l ih => exact ih (h t b ht)

/-- A later insertion at the same key replaces an earlier one. -/
theorem tins_tins {α : Type} (k : Nat) (a b : α) (t : List (Nat × α)) : tins k a (tins k b t) = tins k a t := by
  induction t with
  | nil => simp [tins]
  | cons e t ih =>
    obtain ⟨j, w⟩ := e
    simp only [tins]
    split
    · simp [tins]
    · split
      · simp [tins]
      · simp only [tins]; rw [if_neg ‹_›, if_neg ‹_›, ih]

/-- A table written and read back. -/
theorem tfind_tins_self {α : Type} (k : Nat) (v : α) (t : List (Nat × α)) : tfind k (tins k v t) = some v := by
  rw [tfind_tins]; simp

/-- The canonical form, said of the keys and of the values apart. -/
theorem twfFrom_iff {α : Type} [DecidableEq α] (d : Nat → α) (t : List (Nat × α)) : ∀ lo, twfFrom d lo t = true ↔
    t.Pairwise (fun a b => a.1 < b.1) ∧ ∀ e ∈ t, lo ≤ e.1 ∧ e.2 ≠ d e.1 := by
  induction t with
  | nil => intro lo; simp [twfFrom]
  | cons e t ih =>
    intro lo
    obtain ⟨k, v⟩ := e
    simp only [twfFrom, Bool.and_eq_true, decide_eq_true_eq, ih (k + 1), List.pairwise_cons, List.mem_cons]
    constructor
    · rintro ⟨⟨h1, h2⟩, h3, h4⟩
      refine ⟨⟨fun e he => (h4 e he).1, h3⟩, ?_⟩
      rintro e (rfl | he)
      · exact ⟨h1, h2⟩
      · exact ⟨by have := (h4 e he).1; omega, (h4 e he).2⟩
    · rintro ⟨⟨h1, h2⟩, h3⟩
      exact ⟨h3 (k, v) (Or.inl rfl), h2, fun e he => ⟨h1 e he, (h3 e (Or.inr he)).2⟩⟩

theorem twf_iff {α : Type} [DecidableEq α] (d : Nat → α) (t : List (Nat × α)) :
    twf d t = true ↔ t.Pairwise (fun a b => a.1 < b.1) ∧ ∀ e ∈ t, e.2 ≠ d e.1 := by
  unfold twf; rw [twfFrom_iff]; simp

/-- Moving a run of keys keeps the form where an unlisted key reads the same everywhere. -/
theorem twf_moveKeys {α : Type} [DecidableEq α] (x : α) (t : List (Nat × α)) (a n b : Nat)
    (h : twf (fun _ => x) t = true) : twf (fun _ => x) (moveKeys t a n b) = true := by
  rw [twf_iff] at h ⊢
  unfold moveKeys
  simp only [List.pairwise_append, List.mem_append, List.mem_filter, List.mem_map, decide_eq_true_eq, Bool.and_eq_true]
  refine ⟨⟨⟨h.1.filter _, ?_, ?_⟩, h.1.filter _, ?_⟩, ?_⟩
  · rw [List.pairwise_map]
    refine (h.1.filter _).imp_of_mem ?_
    intro u v hu hv huv
    simp only [List.mem_filter, Bool.and_eq_true, decide_eq_true_eq] at hu hv
    simp only; omega
  · rintro u ⟨-, hu⟩ v ⟨w, ⟨-, hw⟩, rfl⟩; simp only; omega
  · rintro u (⟨-, hu⟩ | ⟨w, ⟨-, hw⟩, rfl⟩) v ⟨-, hv⟩ <;> omega
  · rintro e ((⟨he, -⟩ | ⟨w, ⟨hw, -⟩, rfl⟩) | ⟨he, -⟩)
    · exact h.2 e he
    · exact h.2 w hw
    · exact h.2 e he

/-! ### HBM -/

theorem wf_cellsWrite (l : List Byte) : ∀ (m : List Host.Cell) (a : Nat), Memory.wf m = true →
    Memory.wf (cellsWrite m a l) = true := by
  induction l with
  | nil => exact fun _ _ h => h
  | cons b l ih => exact fun m a h => ih _ _ (twf_tset a b h)

theorem twf_poisonAfter (t : List (Nat × Bool)) (a n pz : Nat) (h : twf noMark t = true) :
    twf noMark (poisonAfter t a n pz) = true := by
  unfold poisonAfter
  refine twf_foldl ?_ _ h
  intro t i ht
  dsimp only
  split
  · exact twf_tset _ _ ht
  · split
    · exact twf_tset _ _ ht
    · exact ht

theorem tget_cellsWrite (l : List Byte) : ∀ (m : List Host.Cell) (a b : Nat), tget hbmDefault (cellsWrite m a l) b =
    if a ≤ b ∧ b < a + l.length then l.getD (b - a) 0 else tget hbmDefault m b := by
  induction l with
  | nil => intro m a b; rw [if_neg (by rw [List.length_nil]; omega)]; rfl
  | cons x l ih =>
    intro m a b
    rw [cellsWrite, ih, tget_tset]
    by_cases hb : b = a
    · subst hb
      rw [if_neg (by omega), if_pos (by simp), if_pos (by simp)]; simp
    · by_cases h : a + 1 ≤ b ∧ b < a + 1 + l.length
      · rw [if_pos h, if_pos (by simp; omega)]
        have e : b - a = (b - (a + 1)) + 1 := by omega
        rw [e]; simp
      · have h' : ¬ (a ≤ b ∧ b < a + (x :: l).length) := by rw [List.length_cons]; omega
        simp only [h, h', hb, if_false]

namespace State

variable (s : State)

/-- A byte after a write: the written one inside, the old one outside. -/
theorem hbmByte_hbmWrite (a : Nat) (l : List Byte) (pz b : Nat) : (s.hbmWrite a l pz).hbmByte b =
    if a ≤ b ∧ b < a + l.length then l.getD (b - a) 0 else s.hbmByte b := by
  unfold hbmWrite hbmByte
  split
  · have : l = [] := by simpa using ‹l.isEmpty = true›
    subst this; rw [if_neg (by simp only [List.length_nil]; omega)]
  · exact tget_cellsWrite l _ _ _

/-- Bytes outside a range left open read as before. -/
theorem hbmByte_hbmOpen (a n b : Nat) (h : ¬ (a ≤ b ∧ b < a + n)) : (s.hbmOpen a n).hbmByte b = s.hbmByte b := by
  have k := tget_cellsWrite ((List.range n).map fun i => Config.freeByte (s.freeCtr + i)) s.hbm a b
  rw [if_neg (by simpa using h)] at k
  exact k

/-- Bytes written are the bytes read. -/
theorem hbmRead_hbmWrite (a : Nat) (l : List Byte) (pz : Nat) : (s.hbmWrite a l pz).hbmRead a l.length = l := by
  apply List.ext_getElem
  · simp [hbmRead]
  · intro i h1 h2
    simp only [hbmRead, List.getElem_map, List.getElem_range, hbmByte_hbmWrite]
    rw [if_pos (by omega)]
    simp [h2]

/-! ### Canonical form -/

variable {s}

theorem tablesOk_wr (a : Nat) (v : W64) (h : s.tablesOk) : (s.wr a v).tablesOk := ⟨h.1, h.2.1, twf_tset a v h.2.2⟩
theorem tablesOk_wrN (a n : Nat) (h : s.tablesOk) : (s.wrN a n).tablesOk := tablesOk_wr _ _ h
theorem tablesOk_sf (f : Fld) (n : Nat) (h : s.tablesOk) : (s.sf f n).tablesOk := tablesOk_wr _ _ h
theorem tablesOk_hbmWrite (a : Nat) (l : List Byte) (pz : Nat) (h : s.tablesOk) : (s.hbmWrite a l pz).tablesOk := by
  unfold hbmWrite
  split
  · exact h
  · exact ⟨wf_cellsWrite l _ _ h.1, twf_poisonAfter _ _ _ _ h.2.1, h.2.2⟩
theorem tablesOk_hbmOpen (a n : Nat) (h : s.tablesOk) : (s.hbmOpen a n).tablesOk := ⟨wf_cellsWrite _ _ _ h.1, h.2⟩
theorem twf_keepMarks (old new : List (Nat × Bool)) (a n : Nat) (h : twf noMark new = true) :
    twf noMark (keepMarks old new a n) = true := by
  unfold keepMarks
  refine twf_foldl ?_ _ h
  intro t i ht
  split
  · exact twf_tset _ _ ht
  · exact ht
/-- Whatever leaves HBM, marks and registers alone keeps the form. -/
theorem tablesOk_congr {t : State} (h : s.tablesOk) (a : t.hbm = s.hbm) (b : t.hbmPoison = s.hbmPoison)
    (c : t.regs = s.regs) : t.tablesOk := by unfold tablesOk; rw [a, b, c]; exact h
theorem tablesOk_addCtr (w a k : Nat) (h : s.tablesOk) : (s.addCtr w a k).tablesOk := tablesOk_wr _ _ h
theorem tablesOk_hold (x : List (Nat × HoldSet)) (h : s.tablesOk) : State.tablesOk { s with hold := x } := h
theorem tablesOk_holdLine (die line o n : Nat) (w sv : Bool) (h : s.tablesOk) : (s.holdLine die line o n w sv).tablesOk := by
  unfold holdLine memCnt; dsimp only
  split
  · exact tablesOk_hold _ (tablesOk_addCtr _ _ _ h)
  · exact tablesOk_hold _ (tablesOk_addCtr _ _ _ (tablesOk_addCtr _ _ _ h))
theorem tablesOk_holdRange (die : Nat) (w sv : Bool) (fuel : Nat) : ∀ (x n : Nat) (s : State), s.tablesOk →
    (holdRange die w sv fuel x n s).tablesOk := by
  induction fuel with
  | zero => exact fun _ _ s h => h
  | succ f ih =>
    intro x n s h; unfold holdRange
    split
    · exact h
    · exact ih _ _ _ (tablesOk_holdLine _ _ _ _ _ _ h)
theorem tablesOk_holdTouch (off n : Nat) (w sv : Bool) (h : s.tablesOk) : (s.holdTouch off n w sv).tablesOk :=
  tablesOk_holdRange _ _ _ _ _ _ _ h
theorem tablesOk_hbmCopy (a n b : Nat) (h : s.tablesOk) : (s.hbmCopy a n b).tablesOk := by
  have k := tablesOk_holdTouch b n true false (tablesOk_holdTouch a n false false h)
  exact ⟨twf_moveKeys _ _ _ _ _ k.1, twf_moveKeys _ _ _ _ _ k.2.1, k.2.2⟩

end State
end Sys2Proof.Machine
end

