-- ==== Sys2Proof/WellFormed.lean ====
section
/-! DEFINITION. Which commands a sender may put into the queue: operands inside the ranges their fields have. The
meanings are total and check none of this; a command outside it stands for nothing that can arrive. -/

namespace Sys2Proof

/-- A packet's fields fit the header of Table 12.4. -/
def Machine.Pkt.wf (p : Machine.Pkt) : Bool :=
  decide (p.opcode < 2 ^ 8) && decide (p.flags < 2 ^ 8) && decide (p.length < 2 ^ 16) && decide (p.srcDie < 4) &&
  decide (p.txn < 2 ^ 32) && decide (p.aux < 2 ^ 32) && decide (p.e2e < 2 ^ 32) && decide (p.linkSeq < 2 ^ 12) &&
  decide (p.vc < 4) && decide (p.payload.length ≤ 256)

/-- Reads of other modules come with their global addresses (R28). -/
def rowsOk (rows : List (Nat × List Byte)) : Bool := rows.all fun r => decide (r.1 < 2 ^ 56)

/-- Whether a command can arrive. -/
def Instr.wf : Instr → Bool
  | .registerWrite _ off data => decide (0 < data.length) && decide (off.toNat + data.length ≤ 2 ^ 28)
  | .frameReceived _ bytes _ _ _ _ _ path => decide (0 < bytes.length) && path.all fun e => decide (e.1.toNat < bytes.length)
  | .ledgerCheck _ bytes _ _ _ => decide (0 < bytes.length)
  | .cacheLookup _ msg _ _ => decide (32 ≤ msg.length)
  | .offloadOutput _ outs _ _ => decide (0 < outs.length) && decide (outs.length ≤ 64)
  | .seqOpen _ ext => rowsOk ext
  | .seqClose _ ext => rowsOk ext
  | .runBarrier _ ext => rowsOk ext
  | .commitBarrier _ ext => rowsOk ext
  | .hello _ frame => decide (8 ≤ frame.length)
  | .prove _ frame => decide (8 ≤ frame.length)
  | .read _ p _ => p.wf
  | .write _ p => p.wf
  | .atomicAdd _ p => p.wf
  | .atomicUmax _ p => p.wf
  | .atomicSmax _ p => p.wf
  | .atomicCas _ p => p.wf
  | .reduce _ p => p.wf
  | .doorbell _ p => p.wf
  | .response _ p => p.wf
  | .remap _ _ _ _ _ _ _ _ _ _ _ rows => rowsOk rows
  | .pcieTlpReceived kind _ _ off be data => decide (off.toNat % 4 = 0) && decide (be.length % 4 = 0) && decide (be.length ≤ 4096) &&
      (kind.val != 0 || data.length == be.length)
  | .imageCopyTried headerA headerB _ => decide (headerA.length = 64) && decide (headerB.length = 64)
  | .samplePreload sampled preload => decide (sampled.length = preload.length)
  | .eventsClear off _ _ => decide (off.toNat % 4 = 0)
  | .badOpcode _ p => p.wf
  | .pauseExpired .. | .fecCodewordDecoded .. | .ethLinkUp .. | .ethLinkDown .. | .pauseResend .. 
  | .txFrameStart .. | .txFrameEnd .. | .preemptVerify .. | .preemptCtrlWrite .. | .portEnable .. 
  | .portDisable .. | .nativeClear .. | .compatCounterRead .. | .ptpNsRead .. | .ptpSecWrite .. | .ptpNsWrite .. 
  | .ptpStepWrite .. | .ptpRateWrite .. | .swIdxWrite .. | .descriptorFetched .. | .ringEnable .. 
  | .ringDisable .. | .txStage .. | .txFrameStaged .. | .completionTimer .. | .echoWindowExpired .. 
  | .updTimeout .. | .updateCommit .. | .controlVerify | .modelLoad .. | .modelSwitch | .bufferFreed .. 
  | .planLoad .. | .jobDispatch | .mailboxRead .. | .mailboxRelease .. | .missFetchComplete .. | .missTimeout .. 
  | .tableInvalidate .. | .invalidationWalkDone | .writebackAck .. | .writebackRetry .. | .sampleStart 
  | .sampleComplete .. | .nodeScrub .. | .replyLaunch .. | .replyClose .. | .offloadInputSlot .. | .samplerArm .. 
  | .nop .. | .endStrand .. | .loop .. | .send .. | .await .. | .holdRelease | .awaitTimeout | .setac .. 
  | .furl .. | .furlComplete .. | .unfurl .. | .unfurlErase .. | .cset .. | .censusFlushDone .. | .vec .. 
  | .matmul .. | .matmulStart .. | .rescale .. | .rescaleStart .. | .dmaCopy .. | .dmaReformat .. | .dmaFence .. 
  | .dmaReduce .. | .dmaPoll .. | .dmaAtomicAdd .. | .dmaAtomicUmax .. | .dmaAtomicSmax .. | .dmaAtomicCas .. 
  | .dmaDoorbell .. | .dmaTransferEnd .. | .sidePortAccess .. | .becalmEnd | .invocationDispatch | .invocationEnd 
  | .zeroingDone | .resRelease .. | .tileScrub .. | .hbmPatrol .. | .seqEnable .. | .seqDisable .. 
  | .stepStateSeen .. | .rigPortTrained .. | .attestTimeout .. | .rigPortRetry .. | .rigPortDown .. | .linkAck .. 
  | .linkNak .. | .linkCredit .. | .ackTimer .. | .replayTimeout .. | .rekey .. | .operationTimeout .. 
  | .pollRead .. | .reduceRoundTimeout .. | .redRetry .. | .submitGo .. | .claimExpired | .heartbeat 
  | .heartbeatCheck .. | .fenceWrite .. | .epochOpen | .checkpointPoint .. | .checkpointDone | .epochCommit .. 
  | .epochAbandoned | .serveEpochAdvance | .logRecordStored .. | .logWriteRetry .. | .tableHold | .leaseRenew .. 
  | .leaseCheck .. | .nestLost | .take | .leave | .modeWrite .. | .svnAdvance .. | .rngHealthFail | .powerOn 
  | .resetPin | .hostReset | .perst .. | .restart | .wdtKick .. | .watchdogExpired | .regulatorsGood 
  | .regulatorStartFail | .rootPllLock | .romBoot | .startPlanner .. | .selftest .. | .hbmTraining .. | .ready .. 
  | .linkWaitExpired | .plannerPeriod | .reefGlide | .glideDone | .powerLoop .. | .currentLimit .. | .thermalTrip 
  | .inputRemoved | .overvoltage | .overcurrent | .sysRefclkLost | .serdesRefclkLost | .pcieRefclkLost 
  | .smbSetOffset .. | .smbRead32 | .smbRead64 | .bypass | .extest | .msixUnmask .. | .monitorSample .. 
  | .hbmTemperatureReport .. | .hbmStackFailed .. | .leaseLapsed | .submitStatusRead .. | .resetNReleased 
  | .serdesRefclkReturned | .mgmtCoreMemoryError | .linkCheckFail .. => true

end Sys2Proof
end

