-- ==== Sys2Proof/Tests/Slice0.lean ====
section
/-! SUPPORT. Tests: commands that no sender may send, steps whose outcome a worked example or a table of spec/ gives, and
for each statement with hypotheses states and operands that meet them, one theorem for each clause. -/

namespace Sys2Proof.Tests
open Sys2Proof Sys2Proof.Machine

set_option maxRecDepth 100000
set_option exponentiation.threshold 512

/-! ### Helpers -/

def b : State := State.reset
/-- a module in service -/
def rdy : State :=
  { ((b.sf F.MODULE_STATE_STATE 3).sf F.BOOT_STATUS_STEP 11).wrN R.MODULE_NUMBER 5 with now := 1000, boot := { b.boot with readyAt := some 0 }, pwr := { b.pwr with vinUp := true, good := true, pcieUp := true, smbAddr := some 0x58 } }
def frame (body : List Byte) : List Byte :=
  let x := body ++ List.replicate (60 - body.length) 0; x ++ leBytes 4 (crc32 x)
def portUp (p : Nat) (s : State) : State :=
  (((s.sf (F.ETH_PORT_CTRL_ENABLE p) 1).sf (F.ETH_PORT_STATUS_LINK_UP p) 1).sf (F.ETH_PORT_STATUS_ALIGNED p) 1)
/-- plan image: sections (type, variant, bucket, bytes) -/
def mkPlan (kind flags shards owner : Nat) (dims nb seqm : Nat) (cls : List Byte) (secs : List (Nat × Nat × Nat × List Byte)) : List Byte :=
  let n := secs.length
  let hd := leBytes 4 0x504C414E ++ leBytes 2 1 ++ leBytes 2 n ++ leBytes 1 kind ++ leBytes 1 flags ++ leBytes 2 (shards - 1) ++ leBytes 4 owner ++ leBytes 1 dims ++ leBytes 1 nb ++ leBytes 1 seqm ++ leBytes 1 0 ++ (cls ++ List.replicate 4 0).take 4 ++ List.replicate 40 0
  let (dir, body) := secs.foldl (fun (a : List Byte × List Byte) (x : Nat × Nat × Nat × List Byte) =>
    (a.1 ++ leBytes 2 x.1 ++ leBytes 1 x.2.1 ++ leBytes 1 x.2.2.1 ++ leBytes 4 (64 + 16 * n + a.2.length) ++
        leBytes 4 x.2.2.2.length ++ leBytes 4 0, a.2 ++ x.2.2.2)) ([], [])
  hd ++ dir ++ body
def w64s (l : List W64) : List Byte := l.flatMap fun w => leBytes 8 w.toNat
/-- an instruction as words from (value, width) fields -/
def mkIns (op n : Nat) (fs : List (Nat × Nat)) : List W64 :=
  let tot := 64 * n
  let (v, used) := fs.foldl (fun (a : Nat × Nat) f => (a.1 * 2 ^ f.2 + f.1 % 2 ^ f.2, a.2 + f.2)) (op, 8)
  let x := v * 2 ^ (tot - used)
  (List.range n).map fun k => BitVec.ofNat 64 (x / 2 ^ (64 * (n - 1 - k)))
def sitef (die row col : Nat) : Nat := die * 2 ^ 14 + col * 2 ^ 8 + row
def mkTile (site : Nat) (slots : List (Option Nat)) (strands : List (Nat × Nat)) (code : List W64) : List Byte :=
  let sl := slots.flatMap fun s => match s with
    | some k => leBytes 2 k
    | none => leBytes 2 0x8000
  leBytes 2 site ++ leBytes 2 slots.length ++ leBytes 2 strands.length ++ leBytes 2 0 ++ leBytes 4 code.length ++ (sl ++ List.replicate (8 * ((sl.length + 7) / 8) - sl.length) 0) ++
  (strands.flatMap fun x => leBytes 2 x.1 ++ leBytes 2 0 ++ leBytes 4 x.2) ++ w64s code
def bucketsS (bs : List (List Nat × Nat)) : List Byte :=
  bs.flatMap fun b => ((List.range 4).flatMap fun k => leBytes 4 (b.1.getD k 0)) ++ leBytes 6 b.2 ++ List.replicate 10 0
def plan1 (flags seqm : Nat) : List Byte :=
  mkPlan 0 flags 3 0x77 0 1 seqm [] ([(1, 0, 0, bucketsS [([], 5)]), (2, 0, 0, mkTile (sitef 1 2 3) [some 0] [(0, 0)] (mkIns ocNop 1 [] ++ mkIns ocEnd 1 []))] ++ (if flags.testBit 3 then [(2, 3, 0, mkTile (sitef 1 2 3) [some 0] [(0, 0)] (mkIns ocEnd 1 []))] else []))
/-- tree image: one tree of one leaf -/
def tree1 : List Byte :=
  leBytes 4 0x4D454554 ++ leBytes 2 1 ++ leBytes 2 1 ++ leBytes 1 1 ++ leBytes 1 1 ++ leBytes 2 0 ++ leBytes 4 1 ++ List.replicate 240 0 ++ leBytes 4 0 ++ leBytes 4 1 ++ leBytes 4 0x40000000 ++ leBytes 2 0 ++ leBytes 1 1 ++ leBytes 1 0 ++ leBytes 4 0 ++ leBytes 4 0

theorem issues_intro' (s : State) (i : Issue) (die : Fin 4) (row : Fin 32) (col : Fin 48) (strand : Byte) (op : Nat)
  (h1 : s.issuing (siteN die row col) strand.toNat = some i) (h2 : s.run? i.key = some i.run) (h3 : i.ins.op = op)
  (h4 : i.ins.reserved = false) (h5 : s.trespass i.run i.site = false) (h6 : s.boot.failing = false) : s.issues i die row col strand op := ⟨h1, h2, h3, h4, h5, h6⟩
theorem arrives_intro' (s : State) (n : Nat) (p : Pkt) (h1 : s.linkState n = lsUp) (h2 : s.flag (F.RIGP_CFG_ENC n) = false) (h3 : (s.rigPort n).rx.due = false) (h4 : p.linkSeq = (s.rigPort n).rxSeq) (h5 : s.boot.failing = false) : s.arrives n p := ⟨h1, h2, h3, h4, h5⟩
theorem admits_intro' (s : State) (n : Nat) (p : Pkt) (h : s.arrives n p) (h2 : s.isOwn p.dst.toNat = true) (h3 : p.e2e = p.e2eTag) (h4 : s.shutOut p = false) : s.admits n p := ⟨h, h2, h3, h4⟩
theorem quiet_intro' (s : State) (p : Nat) (h1 : (s.ethPort p).inProg = none) (h2 : (s.ethPort p).susp = none) (h3 : (s.ethPort p).waiting = []) (h4 : (s.ethPort p).genWait = none) (h5 : (s.ethPort p).staging = []) (h6 : ∀ r ∈ s.cut.reqs, r.2.port ≠ p) : s.quietPort p := ⟨h1, h2, h3, h4, h5, h6⟩

theorem dark_intro' (s : State) (h1 : ∀ p, p < 16 → s.linkUp p = false) (h2 : ∀ n, n < 32 → s.linkState n = lsOff) : s.dark := ⟨h1, h2⟩

theorem upTo {n hi : Nat} {P : Nat → Prop} (h : ∀ m, m < hi + 1 → n < m → P m) : ∀ m, n < m → m ≤ hi → P m :=
  fun m a b => h m (Nat.lt_succ_of_le b) a

/-- what a command leaves -/
def after (c : Instr) (s : State) : State := match exec c s with
  | .next t => t
  | _ => s

/-! ### Commands that no sender may send -/

namespace Form
def pk : Pkt := { opcode := 1 }
theorem test_form_registerWrite : (Instr.registerWrite .mgmt 4 [1]).wf = true ∧ (Instr.registerWrite .mgmt 4 []).wf = false ∧
    (Instr.registerWrite .mgmt 0xFFFFFFF [1, 2]).wf = false := by decide
theorem test_form_frameReceived : (Instr.frameReceived 0 [1] false false 0 false 0 []).wf = true ∧
    (Instr.frameReceived 0 [] false false 1 false 0 []).wf = false ∧
    (Instr.frameReceived 0 [1] false false 0 false 0 [(1, 0)]).wf = false := by decide
theorem test_form_ledgerCheck : (Instr.ledgerCheck 0 [] 0 false false).wf = false := by decide
theorem test_form_cacheLookup : (Instr.cacheLookup 0 (List.replicate 31 0) 0 []).wf = false ∧
    (Instr.cacheLookup 0 (List.replicate 32 0) 0 []).wf = true := by decide
theorem test_form_offloadOutput : (Instr.offloadOutput 0 [] false 0).wf = false ∧
    (Instr.offloadOutput 0 (List.replicate 65 0) false 0).wf = false ∧
    (Instr.offloadOutput 0 (List.replicate 64 0) false 0).wf = true := by decide
theorem test_form_seqOpen : (Instr.seqOpen 0 [(2 ^ 56, [])]).wf = false ∧ (Instr.seqOpen 0 [(2 ^ 56 - 1, [])]).wf = true := by
  decide
theorem test_form_seqClose : (Instr.seqClose 0 [(2 ^ 56, [])]).wf = false := by decide
theorem test_form_runBarrier : (Instr.runBarrier none [(2 ^ 56, [])]).wf = false := by decide
theorem test_form_commitBarrier : (Instr.commitBarrier none [(2 ^ 56, [])]).wf = false := by decide
theorem test_form_remap :
    (Instr.remap 0 none 0 0 [] 0 [] [] [] none {} [(2 ^ 56, [])]).wf = false := by decide
theorem test_form_hello : (Instr.hello 0 (List.replicate 7 0)).wf = false ∧ (Instr.hello 0 (List.replicate 8 0)).wf = true := by
  decide
theorem test_form_prove : (Instr.prove 0 (List.replicate 7 0)).wf = false := by decide
theorem test_form_packet : pk.wf = true ∧ ({ pk with opcode := 256 } : Pkt).wf = false ∧
    ({ pk with flags := 256 } : Pkt).wf = false ∧ ({ pk with length := 65536 } : Pkt).wf = false ∧
    ({ pk with srcDie := 4 } : Pkt).wf = false ∧ ({ pk with txn := 2 ^ 32 } : Pkt).wf = false ∧
    ({ pk with aux := 2 ^ 32 } : Pkt).wf = false ∧ ({ pk with e2e := 2 ^ 32 } : Pkt).wf = false ∧
    ({ pk with linkSeq := 4096 } : Pkt).wf = false ∧ ({ pk with vc := 4 } : Pkt).wf = false ∧
    ({ pk with payload := List.replicate 257 0 } : Pkt).wf = false := by decide
theorem test_form_packet_commands : ∀ p : Pkt, p.wf = false → (Instr.read 0 p 0).wf = false ∧ (Instr.write 0 p).wf = false ∧
    (Instr.atomicAdd 0 p).wf = false ∧ (Instr.atomicUmax 0 p).wf = false ∧ (Instr.atomicSmax 0 p).wf = false ∧
    (Instr.atomicCas 0 p).wf = false ∧ (Instr.reduce 0 p).wf = false ∧ (Instr.doorbell 0 p).wf = false ∧
    (Instr.response 0 p).wf = false ∧ (Instr.badOpcode 0 p).wf = false :=
  fun _ h => ⟨h, h, h, h, h, h, h, h, h, h⟩
theorem test_form_pcieTlpReceived : (Instr.pcieTlpReceived 0 false false 2 [true, true, true, true] [1, 2, 3, 4]).wf = false ∧
    (Instr.pcieTlpReceived 0 false false 0 [true] [1]).wf = false ∧
    (Instr.pcieTlpReceived 0 false false 0 [true, true, true, true] []).wf = false ∧
    (Instr.pcieTlpReceived 1 false false 0 (List.replicate 4100 true) []).wf = false ∧
    (Instr.pcieTlpReceived 0 false false 0 [true, true, true, true] [1, 2, 3, 4]).wf = true := by decide
theorem test_form_imageCopyTried : (Instr.imageCopyTried (List.replicate 63 0) (List.replicate 64 0) none).wf = false ∧
    (Instr.imageCopyTried (List.replicate 64 0) (List.replicate 65 0) none).wf = false ∧
    (Instr.imageCopyTried (List.replicate 64 0) (List.replicate 64 0) none).wf = true := by decide
theorem test_form_samplePreload : (Instr.samplePreload [true] []).wf = false := by decide
theorem test_form_eventsClear : (Instr.eventsClear 2 0 0).wf = false ∧ (Instr.eventsClear 4 0 0).wf = true := by decide
end Form

/-! ### The block as a whole: what meets the hypotheses -/

namespace Whole
def q : State := { rdy with pending := [.heartbeat, .take] }
theorem StepRunsFront_witness :
    ∃ (c : Instr) (rest : List Instr) (s : State), s.pending = c :: rest :=
  ⟨.heartbeat, [.take], q, rfl⟩
theorem IdleStep_witness : ∃ s : State, s.pending = [] ∧ s.grid.idle = true ∧ s.ptpRuns = true :=
  ⟨rdy, rfl, by decide, by decide⟩
theorem InterruptLines_witness : ∃ s t : State, step s = .next t ∧ s.pending ≠ [] :=
  ⟨{ rdy with pending := [.ptpSecWrite 5] }, _, rfl, by decide⟩
theorem MemoriesCanonical_witness : ∃ s t : State, s.tablesOk ∧ step s = .next t ∧ s.hbm ≠ [] :=
  ⟨{ rdy with hbm := [(3, 1), (9, 2)], pending := [.ptpSecWrite 5] }, _, ⟨by decide, by decide, by decide⟩, rfl, by decide⟩
theorem test_no_command_spelled : decodeTableWord 8 0 = none ∧ State.reset.withFetchWord 8 0 = State.reset := ⟨rfl, rfl⟩
end Whole

/-! ### The worked examples -/

namespace Worked
/-- The address map of section 1's example: the fields of 0x2A505A3C001200. -/
theorem test_address_fields : gModule 0x2A505A3C001200 = 677 ∧ hbmStackAddr (gOff 0x2A505A3C001200) = 0x91E000200 := by decide
/-- Section 10's worked codes: code 13 as an activation with scale 0x3D80 and shift 0x3F00, code 2 as a weight. -/
theorem test_expand_codes : expandCode fmYq4 13 (some { s := 0x3D80, z := 0x3F00, activation := true }) = 0x3F0B ∧
    expandCode fmYq4 2 (some { s := 0x3F40, z := 0, e := -3 }) = 0xBD4A := by decide
/-- R260's chain is rounded in order: 16,777,216 first loses both ones, last it keeps them. -/
theorem test_chain_order : chain [(0x4580, 0x4580), (0x3F80, 0x3F80), (0x3F80, 0x3F80)] = some 0x4B800000 ∧
    chain [(0x3F80, 0x3F80), (0x3F80, 0x3F80), (0x4580, 0x4580)] = some 0x4B800001 := by decide
/-- R74's example: a count of 41 is read as 41 and holds the increment of its own cycle. -/
theorem test_compat_read : (((after (.compatCounterRead .pcie 4 2 1) (rdy.wrN (R.ETH_COMPAT 4 2) 41)).rd (R.ETH_COMPAT 4 2)) = 1) ∧
    (after (.compatCounterRead .pcie 4 2 1) (rdy.wrN (R.ETH_COMPAT 4 2) 41)).out = [.completion (srcCode .pcie) stOk [41, 0, 0, 0]] := by
  decide
/-- Table 13.13: the first read of a filled mailbox is READY, a later one READY with REPEAT. -/
def mb : State := { rdy with job := { rdy.job with mail := [(17, { state := 2, tag := 7 })] } }
theorem test_mailbox_first : (tfind 17 (after (.mailboxRead (some .mgmt) 17) mb).job.mail).map (·.repeat_) = some true := by decide
theorem test_mailbox_release : (after (.mailboxRelease (some .pcie) 17) mb).job.mail = [] := by decide
/-- Table 19.6, cycles 55 and 90: a clear that meets a set leaves the bit set and counts the recurrence; one that meets
none clears it. -/
def ev : State := rdy.sf F.CUT_EVENTS_MISSQ_FULL 1
theorem test_clear_meets_set : (after (.eventsClear R.CUT_EVENTS 1 1) ev).gf F.CUT_EVENTS_MISSQ_FULL = 1 ∧
    ((after (.eventsClear R.CUT_EVENTS 1 1) ev).rd R.CUT_EVENTS_REOCC).toNat = (ev.rd R.CUT_EVENTS_REOCC).toNat + 1 := by decide
theorem test_clear_alone : (after (.eventsClear R.CUT_EVENTS 1 0) ev).gf F.CUT_EVENTS_MISSQ_FULL = 0 ∧
    (after (.eventsClear R.CUT_EVENTS 1 0) ev).rd R.CUT_EVENTS_REOCC = ev.rd R.CUT_EVENTS_REOCC := by decide
/-- R199: ten links and one crossing take 24 cycles. -/
theorem test_route_time : routeTime (sendRoute 0 5 40 1 5 3 5 0) = 24 := by decide
end Worked

/-! ### What waits for room (R357) -/

/-- port 4 is up towards module 9, with a full queue of requests -/
def crowded : State :=
  let s := (State.reset.sf (F.RIGP_STATUS_LINK_STATE 4) lsUp).wrN (R.RIG_ROUTE 9) 0x10
  { s with rig := { s.rig with ports := [(4, { q0 := List.replicate 256 { opcode := 1 } })] } }
theorem test_full_queue_holds_the_issuer :
    ((crowded.issue .mgmt 0 opWrite (gAddr 9 0x40) 1 0 0 [7]).rig.waiting.map fun w => w.payload) = [[7]] ∧
    (crowded.issue .mgmt 0 opWrite (gAddr 9 0x40) 1 0 0 [7]).rig.ops = [] := by decide

/-- Table 15.3: two bits in error in record bytes 64 to 127 of a record at a 256-byte boundary: POISON bit 1 of its packet. -/
theorem test_record_poison : poisonBits (marksFrom 0 [100]) 0 256 = 2 := by decide
/-- One bit of a path code word is corrected and counted, two are counted and set PATH_UNCORR (R414). -/
theorem test_pathErrs : ((State.reset.pathErrs [false, true]).rd (R.SEC_COUNT 0) = 1) ∧
    ((State.reset.pathErrs [false, true]).rd (R.SEC_COUNT 1) = 1) ∧
    (State.reset.pathErrs [false, true]).gf F.SEC_EVENTS_PATH_UNCORR = 1 := by decide
/-- A poisoned unit of 64 bytes is bit u of POISON (R349, R330). -/
theorem test_widePoison : widePoison true 2 = 12 := by decide

/-! ### Ethernet ports: what meets the hypotheses -/

namespace Eth
def up3 : State := portUp 3 rdy
def fc (s : State) (m : Nat) : State := s.sf (F.ETH_PORT_CTRL_FC_MODE 3) m
def pf (q : Nat) : List Byte :=
  frame (beBytes 6 0x0180C2000001 ++ beBytes 6 0x020304050607 ++ beBytes 2 0x8808 ++ beBytes 2 1 ++ beBytes 2 q)
def gp : TxFrame := { kind := .genPause, bytes := [1,2,3] }
def s4 : State :=
  { (fc up3 1) with eth := [(3, { pauseEnd := 2000, pfcEnd := [(1, 5)] })] } |>.sf (F.ETH_FC_STATE_LINK_PAUSED 3) 1
def s6 : State := ((b.sf (F.ETH_PORT_CTRL_ENABLE 3) 1).sf F.MODULE_STATE_STATE 2)
def s8 : State := { up3 with eth := [(3, { preemptEff := 3 })] } |>.sf (F.ETH_PREEMPT_STATUS_VERIFY_STATUS 3) 2
def s9 : State :=
  ({ (fc up3 1) with eth := [(3, { xoff := true, lastGen := 900 })], rings := [(3, { items := [{ port := 3, rest := List.replicate 5000 1 }] })] } |>.sf (F.ETH_FC_THRESH_XOFF_KIB 3) 4 |>.sf (F.ETH_FC_TX_TX_PAUSE_TIME 3) 100)
def s10 : State := { up3 with eth := [(3, { genWait := some gp })] }
def s11 : State := { up3 with eth := [(3, { inProg := some gp })] }
def s13 : State := { up3 with ptp := { clock := ⟨5, 6, 7⟩, staged := 99 } }
theorem NativeClear_witness_0 :
    ∃ (incs : List (Fin 52 × Nat)), (List.map Prod.fst incs).Nodup ∧ (∀ (e : Fin 52 × Nat), e ∈ incs → e.snd < 2 ^
        39) :=
  ⟨[(44, 3), (43,2)], (by decide), (by decide)⟩
theorem FecCodewords_witness_1 :
    ∃ (p : Fin 48), ↑p < 16 :=
  ⟨15, (by decide)⟩
theorem FecCodewords_witness_2 :
    ∃ (p : Fin 48) (symbols : Byte), ↑p < 16 ∧ symbols ≠ 0 :=
  ⟨15, 5, (by decide), (by decide)⟩
theorem FecCodewords_witness_3 :
    ∃ (p : Fin 48), 16 ≤ ↑p :=
  ⟨47, (by decide)⟩
theorem FecCodewords_witness_4 :
    ∃ (p : Fin 48) (symbols : Byte), 16 ≤ ↑p ∧ symbols ≠ 0 :=
  ⟨47, 5, (by decide), (by decide)⟩
theorem PreemptionControl_witness_0 :
    ∃ (s : State) (p : Fin 16), s.gf (F.ETH_PREEMPT_STATUS_VERIFY_STATUS ↑p) = 2 :=
  ⟨s8, 3, (by decide)⟩
theorem PortLink_witness_0 :
    ∃ (s : State) (p : Fin 16), s.portOn ↑p = true ∧ s.linkUp ↑p = false ∧ msLinking ≤ s.modState ∧ s.modState ≠
        msFailed ∧ s.pwr.serdesLost = false :=
  ⟨s6, 3, (by decide), (by decide), (by decide), (by decide), (by decide)⟩
theorem PortLink_witness_1 :
    ∃ (s : State) (p : Fin 16), s.portOn ↑p = true ∧ s.linkUp ↑p = true ∧ s.quietPort ↑p :=
  ⟨s13, 3, (by decide), (by decide), (quiet_intro' _ _ (by decide) (by decide) (by decide) (by decide) (by decide)
      (by decide))⟩
theorem PortLink_witness_3 :
    ∃ (s : State) (p : Fin 16), s.portOn ↑p = true :=
  ⟨s13, 3, (by decide)⟩
theorem PausesInForce_witness_0 :
    ∃ (s : State) (p : Fin 16) (b : List Byte) (pre : Bool) (ago : Nat), s.linkUp ↑p = true ∧ (∃ r, s.boot.readyAt
        = some r ∧ r ≤ s.now - ago) ∧ (pre = true → (s.ethPort ↑p).preemptEff.testBit 0 = true) ∧ s.macDrop (↑p) b
        false false = none ∧ s.carriageOf (↑p) b = none ∧ (s.frameInfo (↑p) b).etype = 34824 ∧ beAt b (s.frameInfo
        (↑p) b).body 2 = 1 ∧ s.fcMode ↑p = 1 :=
  ⟨s9, 3, (pf 0xffff), false, 47, (by decide), ⟨_, rfl, by decide⟩, (by decide), (by decide), (by decide), (by
      decide), (by decide), (by decide)⟩
theorem PausesInForce_witness_1 :
    ∃ (s : State) (p : Fin 16), s.grid.idle = true ∧ s.gf (F.ETH_FC_STATE_LINK_PAUSED ↑p) = 1 ∧ s.gf
        (F.ETH_FC_STATE_PRI_PAUSED ↑p) = 0 :=
  ⟨s4, 3, (by decide), (by decide), (by decide)⟩
theorem PausesInForce_witness_2 :
    ∃ (s : State) (p : Fin 16), s.grid.idle = true ∧ s.linkUp ↑p = true ∧ s.pauseGen ↑p = true ∧ s.fcMode ↑p = 1 ∧
        (s.ethPort ↑p).xoff = true ∧ s.xonKib ↑p * 1024 ≤ s.spillBytes ↑p :=
  ⟨s9, 3, (by decide), (by decide), (by decide), (by decide), (by decide), (by decide)⟩
theorem DroppedFrame_witness_0 :
    ∃ (s : State) (p : Fin 16) (b : List Byte) (phy : Bool) (reasm : Bool) (c : Nat) (ago : Nat), s.linkUp ↑p =
        true ∧ (∃ r, s.boot.readyAt = some r ∧ r ≤ s.now - ago) ∧ s.carriageOf (↑p) b = none ∧ s.macDrop (↑p) b phy
        reasm = some c ∧ (s.destOk (↑p) (s.frameInfo (↑p) b) b && s.etypeOk (↑p) (s.frameInfo (↑p) b) b) = false :=
  ⟨s9, 3, [], true, true, 38, 5, (by decide), ⟨_, rfl, by decide⟩, (by decide), (by decide), (by decide)⟩
theorem TransmitFrame_witness_0 :
    ∃ (s : State) (p : Fin 16) (f : TxFrame), s.linkUp ↑p = true ∧ (s.ethPort ↑p).inProg = none ∧ (s.ethPort
        ↑p).susp = none ∧ BitVec.toNat (s.rd (R.ETH_PREEMPT_CTRL ↑p)) = (s.ethPort ↑p).preemptEff ∧ (s.ethPort
        ↑p).genWait = some f ∧ f.kind = TxKind.genPause ∧ f.express = true :=
  ⟨s10, 3, _, (by decide), (by decide), (by decide), (by decide), rfl, (by decide), (by decide)⟩
theorem TransmitFrame_witness_1 :
    ∃ (s : State) (p : Fin 16) (f : TxFrame), s.grid.idle = true ∧ (s.ethPort ↑p).inProg = some f ∧ f.kind =
        TxKind.genPause ∧ f.frags = 0 :=
  ⟨s11, 3, _, (by decide), rfl, (by decide), (by decide)⟩
end Eth

/-! ### Hardware rings: what meets the hypotheses -/

namespace Rings
def rg (n c port : Nat) (en : Nat) (s : State) : State :=
  ((s.sf (F.RING_CFG_CLASS n) c).sf (F.RING_CFG_PORT n) port).sf (F.RING_CFG_ENABLE n) en
def desc (len : Nat) : List Byte := leBytes 8 0x10000 ++ leBytes 4 len ++ List.replicate 20 0
def st : List State := [b, rdy] ++ ((List.range 5).flatMap fun c => [
   (rg 100 (c+1) 3 1 rdy), (rg 100 (c+1) 3 0 rdy).wrN (R.RING_SW_IDX 100) 7,
   ((rg 100 (c+1) 3 1 (portUp 3 rdy)).wrN (R.RING_SW_IDX 100) 20).wrN (R.RING_DEV_IDX 100) 10,
   { (((rg 100 (c+1) 3 1 rdy).wrN (R.RING_SW_IDX 100) 20).wrN (R.RING_DEV_IDX 100) 10) with rings := [(100, { readIdx := 12, fetched := [⟨10, true, desc 4, 0⟩, ⟨11, true, desc 5, 0⟩], timerFrom := some 900 })] } |>.sf (F.RING_IRQ_CTRL_IRQ_TIMER 100) 5,
   { (((rg 100 (c+1) 3 1 rdy).wrN (R.RING_SW_IDX 100) 0xffffffff).wrN (R.RING_DEV_IDX 100) 0xfffffff0) with rings := [(100, { readIdx := 0xfffffffe })] } ]) ++ [
   ((rg 3 1 3 1 rdy).wrN (R.RING_SW_IDX 3) 20),
   { (rg 100 2 3 1 (portUp 3 rdy)) with eth := [(3, { staging := [{ ring := 100, descs := [desc 64, desc 3], len := 67, prio := 0, stampReq := false, known := 3 }, { ring := 101, descs := [], len := 0, prio := 0, stampReq := false, reading := true }] })] },
   { (rg 100 2 3 1 (portUp 3 rdy)) with eth := [(3, { staging := [{ ring := 100, descs := [desc 64, desc 3], len := 67, prio := 0, stampReq := false, reading := true }] })] }]
theorem SwIdxWrite_witness_0 :
    ∃ (s : State) (n : BitVec 16), s.ringOn n.toNat = false :=
  ⟨(st.getD 29 .reset), 0xffff, (by decide)⟩
theorem SwIdxWrite_witness_1 :
    ∃ (s : State) (n : BitVec 16) (v : W32), s.ringOn n.toNat = true ∧ (2 ^ 31 ≤ BitVec.toNat (v - BitVec.ofNat 32
        (s.swIdx n.toNat)) ∨ (s.ringClass n.toNat = rcRx ∨ s.ringClass n.toNat = rcTx ∨ s.ringClass n.toNat =
        rcRecord) ∧ s.ringSize n.toNat < BitVec.toNat (v - BitVec.ofNat 32 (s.devIdx n.toNat)) ∨ (s.ringClass
        n.toNat = rcReclog ∨ s.ringClass n.toNat = rcDoorbell) ∧ (BitVec.ofNat 32 (s.devIdx n.toNat) - BitVec.ofNat
        32 (s.swIdx n.toNat)).toNat < BitVec.toNat (v - BitVec.ofNat 32 (s.swIdx n.toNat))) :=
  ⟨(st.getD 29 .reset), 0x64, 0x80000007, (by decide), (by decide)⟩
theorem SwIdxWrite_witness_2 :
    ∃ (s : State) (n : BitVec 16) (v : W32), s.ringOn n.toNat = true ∧ (¬(2 ^ 31 ≤ BitVec.toNat (v - BitVec.ofNat
        32 (s.swIdx n.toNat)) ∨ (s.ringClass n.toNat = rcRx ∨ s.ringClass n.toNat = rcTx ∨ s.ringClass n.toNat =
        rcRecord) ∧ s.ringSize n.toNat < BitVec.toNat (v - BitVec.ofNat 32 (s.devIdx n.toNat)) ∨ (s.ringClass
        n.toNat = rcReclog ∨ s.ringClass n.toNat = rcDoorbell) ∧ (BitVec.ofNat 32 (s.devIdx n.toNat) - BitVec.ofNat
        32 (s.swIdx n.toNat)).toNat < BitVec.toNat (v - BitVec.ofNat 32 (s.swIdx n.toNat)))) :=
  ⟨(st.getD 29 .reset), 0x64, 0x2f, (by decide), (by decide)⟩
theorem RingSwitch_witness_0 :
    ∃ (s : State) (n : BitVec 16), s.ringOn n.toNat = false :=
  ⟨(st.getD 29 .reset), 0xffff, (by decide)⟩
theorem RingSwitch_witness_1 :
    ∃ (s : State) (n : BitVec 16), s.ringOn n.toNat = true ∧ s.ringClass n.toNat ≠ rcRx :=
  ⟨(st.getD 29 .reset), 0x64, (by decide), (by decide)⟩
theorem RingSwitch_witness_2 :
    ∃ (s : State) (n : BitVec 16), s.ringOn n.toNat = true ∧ s.ringClass n.toNat = rcRx ∧ (s.ring n.toNat).items = [] :=
  ⟨(st.getD 27 .reset), 3, (by decide), (by decide), (by decide)⟩
theorem DescriptorFetched_witness_0 :
    ∃ (s : State) (n : BitVec 16) (ext : Option (List Byte)), s.mayFetch n.toNat = true ∧ (s.ringClass n.toNat =
        rcRecord ∨ s.ringClass n.toNat = rcRx ∧ (s.ring n.toNat).items = []) ∧ (∀ (d : FetchedDesc), d ∈ (s.ring
        n.toNat).fetched → d.ok = true) ∧ (ext.isSome = true ∨ (s.ring n.toNat).fetched ≠ [] ∨ (s.ring
        n.toNat).items ≠ []) ∧ (s.unitAddr n.toNat (s.ring n.toNat).readIdx).testBit 63 = false :=
  ⟨(st.getD 5 .reset), 0x64, none, (by decide), (by decide), (by decide), (by decide), (by decide)⟩
theorem DescriptorFetched_witness_1 :
    ∃ (s : State) (n : BitVec 16), s.mayFetch n.toNat = true ∧ s.ringClass n.toNat = rcRecord ∧ (s.ring
        n.toNat).items = [] ∧ (s.ring n.toNat).fetched = [] ∧ (BitVec.toNat (s.rd (R.RING_IDX_MIRROR
        n.toNat))).testBit 62 = false ∧ (s.unitAddr n.toNat (s.devIdx n.toNat) + 8).testBit 63 = false ∧
        (s.unitAddr n.toNat (s.ring n.toNat).readIdx).testBit 63 = false :=
  ⟨(st.getD 16 .reset), 0x64, (by decide), (by decide), (by decide), (by decide), (by decide), (by decide), (by decide)⟩
theorem TransmitStaging_witness_0 :
    ∃ (s : State) (n : BitVec 16) (f : StagedTx), (s.ethPort (s.ringPort n.toNat)).stagedOf n.toNat = some f ∧
        (s.ethPort (s.ringPort n.toNat)).nextStage = some n.toNat ∧ (s.ethPort (s.ringPort n.toNat)).stagingUsed +
        f.len ≤ 32768 :=
  ⟨(st.getD 28 .reset), 0x64, _, rfl, (by decide), (by decide)⟩
theorem TransmitStaging_witness_1 :
    ∃ (s : State) (n : BitVec 16) (f : StagedTx) (bufs : List (List Byte)), (s.ethPort (s.ringPort
        n.toNat)).stagedOf n.toNat = some f ∧ f.reading = true ∧ f.ready = false ∧ s.linkUp (s.ringPort n.toNat) =
        true ∧ bufs.length = f.descs.length ∧ (∀ (d : List Byte), d ∈ f.descs → (leAt d 0 8 / 64 * 64).testBit 63 =
        false) :=
  ⟨(st.getD 29 .reset), 0x64, _, [List.replicate 64 1, List.replicate 3 2], rfl, (by decide), (by decide), (by
      decide), (by decide), (by decide)⟩
theorem CompletionTimer_witness_0 :
    ∃ (s : State) (n : BitVec 16) (c : Nat), s.grid.idle = true ∧ (s.ring n.toNat).timerFrom = some c ∧ 0 < s.gf
        (F.RING_IRQ_CTRL_IRQ_TIMER n.toNat) ∧ s.flag (F.RING_STATUS_COMPLETION n.toNat) = false :=
  ⟨(st.getD 25 .reset), 0x64, 900, (by decide), (by decide), (by decide), (by decide)⟩
end Rings

/-! ### The ledger and updates: what meets the hypotheses -/

namespace Halyard
def msg (ver kind slot tm id : Nat) : List Byte :=
  beBytes 1 ver ++ beBytes 1 kind ++ beBytes 1 slot ++ beBytes 1 tm ++ beBytes 4 0 ++ beBytes 8 id ++ List.replicate 16 0
def hf (m : List Byte) : List Byte := beBytes 6 0xffffffffffff ++ beBytes 6 0x020304050607 ++ beBytes 2 0x88B5 ++ m
def hs (s : State) : State :=
  ((((s.sf F.HLY_CTRL_ETYPE_EN 1).sf F.HLY_ETYPE_ETYPE 0x88B5).sf (F.ETH_PORT_CTRL_PROMISC 3) 1).sf (F.SLOT_STATUS_LOADED 2) 1)
def up3 : State := hs (portUp 3 rdy)
def led (l : List (Nat × LedgerEntry)) (s : State) : State :=
  ({ s with hly := { s.hly with ledger := l, nextKey := 9 } }).syncLedger
def oe : LedgerEntry := { isOpen := true, kind := 1, slot := 2, port := 3, epoch := 0, order := 4 }
def ue (e : Nat) (m : Nat): UpdEntry := { entity := e, mask := m, values := (List.range 32).map (BitVec.ofNat 32 ·) }
def u1 : UpdCtx :=
  { id := 77, port := 3, order := 4, epoch := 6, limit := 3000, known := true, table := 2, entries := [ue 5 7, ue 6 1, ue 5 0x18], pinned := [5, 6], stored := some 1100, pinnedAt := some 1200, begun := true }
def row (e p : Nat) : CacheLine := { table := 2, entity := e, data := List.replicate 128 3, pins := p }
def upds (us : List (Nat × UpdCtx)) (s : State) : State :=
  led [(77, { oe with kind := 3 }), (78, oe)] { s with hly := { s.hly with upds := us }, cut := { s.cut with lines := [(2*64+1, row 5 1), (2*64+2, row 6 2)] } }
def lr : LogRec := { key := 4, id := 77, table := 2, entries := [], pos := 0, epoch := 6 }
def logs (ls : List LogRec) (s : State) : State := { s with recov := { s.recov with logs := ls } }
def rlink (s : State) : State := (s.sf (F.RIGP_STATUS_LINK_STATE 4) lsUp).wrN (R.REC_SERVE_ROUTE 0 9) 0x10
def gad := gAddr 9 0x200000
def s6 : State := led [(77, {oe with isOpen := false, kind := 3, until_ := 1500}), (78, oe)] up3
def s8 : State := upds [(4, { u1 with begun := false })] up3
def s12 : State := logs [{lr with hdr := 1}] (upds [(4, u1)] up3)
def s13 : State := logs [{lr with hdr := 2}] (upds [(4, {u1 with stored := none}), (5, {u1 with id := 78})] up3)
def s15 : State := rlink (logs [{lr with out := 3, failed := [(gad, [1,2,3], 900)]}] up3)
theorem LedgerCheck_witness_0 :
    ∃ (s : State) (p : Fin 16) (b : List Byte) (ip : Nat) (off : Nat), s.carriageOf (↑p) b = some (ip, off) ∧
        s.destOk (↑p) (s.frameInfo (↑p) b) b = true ∧ s.etypeOk (↑p) (s.frameInfo (↑p) b) b = true ∧ off + 32 ≤
        b.length ∧ beAt (slice b off 32) 0 1 = 1 ∧ (kindOf (slice b off 32) = hkRequest ∨ kindOf (slice b off 32) =
        hkUpdate ∨ kindOf (slice b off 32) = hkControl) ∧ s.recov.left = false ∧ kindOf (slice b off 32) =
        hkRequest ∧ s.holdsModel (slotOf (slice b off 32)) = false :=
  ⟨s15, 3, (hf (msg 1 1 1 0 81)), 0, 14, (by decide), (by decide), (by decide), (by decide), (by decide), (by
      decide), (by decide), (by decide), (by decide)⟩
theorem LedgerCheck_witness_1 :
    ∃ (s : State) (p : Fin 16) (b : List Byte) (ip : Nat) (off : Nat) (e : LedgerEntry), s.carriageOf (↑p) b = some
        (ip, off) ∧ s.destOk (↑p) (s.frameInfo (↑p) b) b = true ∧ s.etypeOk (↑p) (s.frameInfo (↑p) b) b = true ∧
        off + 32 ≤ b.length ∧ beAt (slice b off 32) 0 1 = 1 ∧ (kindOf (slice b off 32) = hkRequest ∨ kindOf (slice
        b off 32) = hkUpdate ∨ kindOf (slice b off 32) = hkControl) ∧ s.recov.left = false ∧ (kindOf (slice b off
        32) = hkRequest → s.holdsModel (slotOf (slice b off 32)) = true) ∧ s.entry (reqIdOf (slice b off 32)) =
        some e :=
  ⟨s13, 3, (hf (msg 1 3 0 0 77)), 0, 14, _, (by decide), (by decide), (by decide), (by decide), (by decide), (by
      decide), (by decide), (by decide), rfl⟩
theorem LedgerCheck_witness_3 :
    ∃ (s : State) (p : Fin 16) (b : List Byte) (ip : Nat) (off : Nat), s.carriageOf (↑p) b = some (ip, off) ∧
        s.destOk (↑p) (s.frameInfo (↑p) b) b = true ∧ s.etypeOk (↑p) (s.frameInfo (↑p) b) b = true ∧ off + 32 ≤
        b.length ∧ beAt (slice b off 32) 0 1 = 1 ∧ (kindOf (slice b off 32) = hkRequest ∨ kindOf (slice b off 32) =
        hkUpdate ∨ kindOf (slice b off 32) = hkControl) ∧ s.recov.left = false ∧ (kindOf (slice b off 32) =
        hkRequest → s.holdsModel (slotOf (slice b off 32)) = true) ∧ s.entry (reqIdOf (slice b off 32)) = none ∧
        s.hly.ledger.length < 262144 :=
  ⟨s15, 3, (hf (msg 1 1 2 0 81)), 0, 14, (by decide), (by decide), (by decide), (by decide), (by decide), (by
      decide), (by decide), (by decide), (by decide), (by decide)⟩
theorem LedgerCheck_witness_4 :
    ∃ (s : State) (p : Fin 16) (b : List Byte) (ip : Nat) (off : Nat) (e : LedgerEntry), s.carriageOf (↑p) b = some
        (ip, off) ∧ s.destOk (↑p) (s.frameInfo (↑p) b) b = true ∧ s.etypeOk (↑p) (s.frameInfo (↑p) b) b = true ∧
        off + 32 ≤ b.length ∧ beAt (slice b off 32) 0 1 = 1 ∧ (kindOf (slice b off 32) = hkRequest ∨ kindOf (slice
        b off 32) = hkUpdate ∨ kindOf (slice b off 32) = hkControl) ∧ s.recov.left = false ∧ (kindOf (slice b off
        32) = hkRequest → s.holdsModel (slotOf (slice b off 32)) = true) ∧ s.entry (reqIdOf (slice b off 32)) =
        some e ∧ s.hly.ledger.length ≤ 262144 :=
  ⟨s13, 3, (hf (msg 1 3 0 0 77)), 0, 14, _, (by decide), (by decide), (by decide), (by decide), (by decide), (by
      decide), (by decide), (by decide), rfl, (by decide)⟩
theorem EchoWindow_witness_0 :
    ∃ (s : State) (id : W64) (e : LedgerEntry), s.entry (BitVec.toNat id) = some e ∧ e.isOpen = false :=
  ⟨s6, 0x4d, _, rfl, (by decide)⟩
theorem UpdateTimeout_witness_0 :
    ∃ (s : State) (key : Nat) (u : UpdCtx) (id : W64), s.hly.upds = [(key, u)] ∧ u.id = BitVec.toNat id ∧ u.begun =
        false ∧ s.recov.logs = [] ∧ s.rig.ended = [] ∧ s.grid.idle = true :=
  ⟨s8, 4, _, 0x4d, rfl, (by decide), (by decide), (by decide), (by decide), (by decide)⟩
theorem UpdateCommit_witness_0 :
    ∃ (s : State) (key : Nat) (u : UpdCtx) (a : Nat) (b : Nat) (id : W64), s.hly.upds = [(key, u)] ∧ u.id =
        BitVec.toNat id ∧ u.stored = some a ∧ u.pinnedAt = some b ∧ s.grid.idle = true :=
  ⟨s12, 4, _, 1100, 1200, 0x4d, rfl, (by decide), (by decide), (by decide), (by decide)⟩
theorem UpdateLog_witness_0 :
    ∃ (s : State) (id : W64) (key : Nat) (u : UpdCtx) (r : LogRec), List.find? (fun x => decide (x.snd.id =
        BitVec.toNat id)) s.hly.upds = some (key, u) ∧ List.find? (fun r => decide (r.key = key))
        s.logTake.recov.logs = some r ∧ (r.hdr = 1 ∨ r.hdr = 2) :=
  ⟨s13, 0x4d, 4, _, _, rfl, rfl, (by decide)⟩
theorem UpdateLog_witness_1 :
    ∃ (s : State) (r : LogRec) (a : Nat) (c : Nat) (d : List Byte) (id : W64), s.recov.logs = [r] ∧ r.id =
        BitVec.toNat id ∧ s.rig.ended = [] ∧ r.cancel = false ∧ r.failed = [(a, d, c)] ∧ r.hdr ≠ 3 ∧ s.grid.idle =
        true ∧ s.isOwn (gModule a) = false ∧ s.issuePort (Issuer.updateEngine 1 r.key) a (some r.epoch) ≠ none :=
  ⟨s15, _, 158329676496896, 900, _, 0x4d, rfl, (by decide), (by decide), (by decide), rfl, (by decide), (by
      decide), (by decide), (by decide)⟩
/-- a ledger with no entry free -/
def lots : List (Nat × LedgerEntry) := (List.range 262144).map fun k => (k + 1000, oe)
def fullOf (l : List (Nat × LedgerEntry)) : State := { up3 with hly := { up3.hly with ledger := l } }
theorem tfind_absent {α : Type} (k : Nat) : ∀ l : List (Nat × α), (∀ e ∈ l, e.1 ≠ k) → tfind k l = none
  | [], _ => rfl
  | (j, v) :: t, h => by
    simp only [tfind]
    rw [if_neg (h (j, v) (List.mem_cons_self ..))]
    exact tfind_absent k t fun e he => h e (List.mem_cons_of_mem _ he)
theorem lots_absent : tfind 81 lots = none :=
  tfind_absent 81 lots fun e he => by
    obtain ⟨k, -, rfl⟩ := List.mem_map.1 he
    show k + 1000 ≠ 81
    omega
theorem full_absent (l : List (Nat × LedgerEntry)) (h : tfind 81 l = none) :
    (fullOf l).entry (reqIdOf (slice (hf (msg 1 1 2 0 81)) 14 32)) = none := by
  have e : reqIdOf (slice (hf (msg 1 1 2 0 81)) 14 32) = 81 := by decide
  rw [e]
  exact h
theorem full_length (l : List (Nat × LedgerEntry)) (h : 262144 ≤ l.length) : 262144 ≤ (fullOf l).hly.ledger.length := h
theorem lots_length : 262144 ≤ lots.length :=
  Nat.le_of_eq (by simp [lots])
theorem LedgerCheck_witness_2 :
    ∃ (s : State) (p : Fin 16) (b : List Byte) (ip off : Nat), s.carriageOf p b = some (ip, off) ∧
      s.destOk p (s.frameInfo p b) b = true ∧ s.etypeOk p (s.frameInfo p b) b = true ∧ off + 32 ≤ b.length ∧
      beAt (slice b off 32) 0 1 = 1 ∧ kindOf (slice b off 32) = hkRequest ∧ s.recov.left = false ∧
      s.holdsModel (slotOf (slice b off 32)) = true ∧ s.entry (reqIdOf (slice b off 32)) = none ∧
      262144 ≤ s.hly.ledger.length :=
  ⟨fullOf lots, 3, hf (msg 1 1 2 0 81), 0, 14, by decide, by decide, by decide, by decide, by decide, by decide,
    by decide, by decide, full_absent lots lots_absent, full_length lots lots_length⟩
end Halyard

/-! ### Serving: what meets the hypotheses -/

namespace Serving
def body : List Byte := List.replicate 32 0 ++ (List.range 40).map (BitVec.ofNat 8 ·)
def ent : Nat := 0x04050607
def tpl (key : Bool) (s : State) : State :=
  let s := s.wrN (R.TPL_FIELD 1 0) (2^63 + 7*2^32 + 1*2^28 + 2)
  let s := s.wrN (R.TPL_FIELD 1 1) (2^63 + 9*2^32 + 5*2^28 + 8)
  if key then ((s.wrN (R.TPL_KEY 1 2) (2^63 + 3*2^48 + 4*2^40 + 20*2^32 + 4)).wrN (R.CUT_TABLE_BASE 3) (2^63 + 5*2^44 + 0x100000)).wrN (R.CUT_TABLE_SIZE 3) 0x10000000 else s
def car : Carriage :=
  { head := beBytes 6 0x020000000001 ++ beBytes 6 0x020000000002 ++ beBytes 2 0x88B5, hdr := beBytes 1 1 ++ beBytes 1 1 ++ beBytes 1 2 ++ beBytes 1 1 ++ beBytes 4 0 ++ beBytes 8 77 ++ List.replicate 16 0, ip := 0, tagged := false, prio := 0 }
def rc : ReqCtx :=
  { id := 77, slot := 2, buf := 0, port := 3, tmpl := 1, epoch := 0, order := 4, msg := body.take 32, car := car, bodyLen := 40, first := 800, needed := 900 }
def oe : LedgerEntry := { isOpen := true, kind := 1, slot := 2, port := 3, epoch := 0, order := 4 }
def mb : ModelBuf :=
  { held := true, trees := 2, t1 := 2, depth := 3, nOut := 1, passes := 1, base := [0x3f800000], roots := [0, 5], fallback := [0] }
def req (c : ReqCtx) (s : State) : State :=
  (({ s with cut := { s.cut with reqs := [(4, c)] }, hly := { s.hly with ledger := [(77, oe)], nextKey := 9 }, teu := { s.teu with bufs := [(4, mb)] } }).syncLedger)
def nodes (s : State) : State :=
  { s with teu := { s.teu with nodes := (List.range 8).map fun k => (k*64*0 + k, ({ inUse := true, slot := 2, leaf := true, value := 0x40000000 } : Node)) } }
def up3 : State := portUp 3 (tpl true rdy)
def line : CacheLine :=
  { table := 3, entity := ent, data := (List.range 128).map (BitVec.ofNat 8 ·), pins := 1, wb := 1 }
def ms (stale : Bool) : MissSlot :=
  { table := 3, entity := ent, issued := 800, limit := 2000, reqs := [4], stale := stale }
def ln (s : State) (l : CacheLine :=
  line) : State := { s with cut := { s.cut with lines := [(cacheSet 3 ent * 16 + 2, l)], useCtr := 5 } }
def miss (m : MissSlot) (s : State) : State := { s with cut := { s.cut with miss := [(6, m)] } }
def asm : State := req { rc with msg := body, stage := .assembly, waits := [6] } up3
def launched (ck : Checks) : ReqCtx :=
  { rc with msg := body, stage := .launched, outputs := [0x3f800000], launchAt := 950, replyAt := 940, padLen := 10, latency := 50, checks := ck }
def inP (s : State) : State :=
  { s with eth := [(3, { inProg := some { kind := .reply 4, bytes := [], startAt := 950 } })] }
def s2 : State := req rc (portUp 3 (tpl false rdy))
def s3 : State := req rc up3
def s4 : State := ln (req rc up3)
def s6 : State := miss (ms true) asm
def s11 : State :=
  { ln rdy { line with pins := 0 } with cut := { (ln rdy { line with pins := 0 }).cut with walkTables := 8, walkFrom := 900, walkNext := 32000 } }
def s12 : State := ln up3 { line with wbFailed := some 800 }
def s13 : State :=
  { (req { rc with stage := .queued, readyAt := 1010 } up3) with teu := { bufs := [(4, mb)], queue := [4] } }
def s16 : State :=
  { nodes (req { rc with stage := .running, startAt := 990 } up3) with teu := { bufs := [(4, mb)], nodes := (List.range 8).map fun k => (k, ({ inUse := true, slot := 2, value := 0x40000000, left := 3, right := 4 } : Node)) } }
def s17 : State := { b with teu := { b.teu with nodes := [(0, { inUse := true, slot := 3 })] } }
def s21 : State :=
  req { rc with msg := body, stage := .ready, outputs := [0x3f800000], replyAt := 950, aligned := true } up3
def s24 : State := inP (req { (launched (.passed 951)) with poisoned := true } up3)
def s25 : State := inP (req (launched (.dropped 955)) up3)
def s26 : State :=
  { (req { rc with stage := .bridgeQueue } up3) with cut := { (req { rc with stage := .bridgeQueue } up3).cut with bridgeQ := [4] } }
def s27 : State := req { rc with stage := .offload } up3
theorem CacheLookup_witness_0 :
    ∃ (s : State) (id : W64) (key : Nat) (c : ReqCtx) (m : List Byte), s.reqOf (BitVec.toNat id) = some (key, c) ∧
        c.stage = Stage.admitted ∧ c.waits = [] ∧ c.msg.length < m.length ∧ (s.modelBuf c.slot c.buf).neural =
        false ∧ s.teu.queue.length ≤ 1024 ∧ s.cut.walkTables = 0 ∧ s.templateKeys c.tmpl m = [] :=
  ⟨s2, 0x4d, 4, _, (body ++ [1, 2, 3]), rfl, (by decide), (by decide), (by decide), (by decide), (by decide), (by
      decide), (by decide)⟩
theorem CacheLookup_witness_1 :
    ∃ (s : State) (id : W64) (key : Nat) (c : ReqCtx) (m : List Byte) (tb : Nat) (e : Nat) (base : Nat) (n : Nat)
        (ln : Nat) (l : CacheLine), s.reqOf (BitVec.toNat id) = some (key, c) ∧ c.stage = Stage.admitted ∧ c.waits
        = [] ∧ c.msg.length < m.length ∧ (s.modelBuf c.slot c.buf).neural = false ∧ s.teu.queue.length ≤ 1024 ∧
        s.cut.walkTables = 0 ∧ s.templateKeys c.tmpl m = [(tb, e, base, n)] ∧ s.entityOk tb e = true ∧ s.lineOf tb
        e = some (ln, l) ∧ s.joinable tb e = none ∧ l.poison = 0 :=
  ⟨s4, 0x4d, 4, _, (body ++ [1, 2, 3]), 3, 67438087, 20, 5, 90322, _, rfl, (by decide), (by decide), (by decide),
      (by decide), (by decide), (by decide), (by decide), (by decide), rfl, (by decide), (by decide)⟩
theorem CacheLookup_witness_2 :
    ∃ (s : State) (id : W64) (key : Nat) (c : ReqCtx) (m : List Byte) (tb : Nat) (e : Nat) (base : Nat) (n : Nat)
        (ln : Nat) (l : CacheLine) (h : Fin 4), s.reqOf (BitVec.toNat id) = some (key, c) ∧ c.stage =
        Stage.admitted ∧ c.waits = [] ∧ c.msg.length < m.length ∧ (s.modelBuf c.slot c.buf).neural = false ∧
        s.teu.queue.length ≤ 1024 ∧ s.cut.walkTables = 0 ∧ s.templateKeys c.tmpl m = [(tb, e, base, n)] ∧
        s.entityOk tb e = true ∧ s.lineOf tb e = some (ln, l) ∧ s.joinable tb e = none ∧ l.poison ||| ↑h ≠ 0 :=
  ⟨s4, 0x4d, 4, _, (body ++ [1, 2, 3]), 3, 67438087, 20, 5, 90322, _, 1, rfl, (by decide), (by decide), (by
      decide), (by decide), (by decide), (by decide), (by decide), (by decide), rfl, (by decide), (by decide)⟩
theorem CacheLookup_witness_3 :
    ∃ (s : State) (id : W64) (key : Nat) (c : ReqCtx) (m : List Byte) (tb : Nat) (e : Nat) (base : Nat) (n : Nat)
        (k : Nat), s.reqOf (BitVec.toNat id) = some (key, c) ∧ c.stage = Stage.admitted ∧ c.waits = [] ∧
        c.msg.length < m.length ∧ (s.modelBuf c.slot c.buf).neural = false ∧ s.teu.queue.length ≤ 1024 ∧
        s.cut.walkTables = 0 ∧ s.templateKeys c.tmpl m = [(tb, e, base, n)] ∧ s.entityOk tb e = true ∧ s.lineOf tb
        e = none ∧ s.joinable tb e = none ∧ s.freeSlot = some k ∧ (List.filter (fun x => x.snd.stage ==
        Stage.assembly) s.cut.reqs).length < 4096 :=
  ⟨s3, 0x4d, 4, _, (body ++ [1, 2, 3]), 3, 67438087, 20, 5, 0, rfl, (by decide), (by decide), (by decide), (by
      decide), (by decide), (by decide), (by decide), (by decide), (by decide), (by decide), (by decide), (by decide)⟩
theorem MissFetch_witness_0 :
    ∃ (s : State) (slot : BitVec 12) (m : MissSlot) (key : Nat) (c : ReqCtx) (off : Nat), tfind slot.toNat
        s.cut.miss = some m ∧ m.reqs = [key] ∧ m.upds = [] ∧ tfind key s.cut.reqs = some c ∧ c.waits = [slot.toNat]
        ∧ (s.modelBuf c.slot c.buf).neural = false ∧ s.teu.queue.length ≤ 1024 ∧ s.cut.walkTables = 0 ∧ s.hly.upds
        = [] ∧ List.find? (fun e => e.issuer == Issuer.missEngine slot.toNat) s.rig.ended = none ∧ placeOf (gOff
        ((s.rowAddr m.table m.entity + 2 ^ 63) % 2 ^ 56)) = Place.hbm off ∧ s.isOwn (gModule ((s.rowAddr m.table
        m.entity + 2 ^ 63) % 2 ^ 56)) = true ∧ (s.rowAddr m.table m.entity + 2 ^ 63).testBit 63 = true ∧
        s.hbmPoisonBits off 128 = 0 :=
  ⟨s6, 6, _, 4, _, 8633123712, rfl, (by decide), (by decide), rfl, (by decide), (by decide), (by decide), (by
      decide), (by decide), (by decide), (by decide), (by decide), (by decide), (by decide)⟩
theorem MissFetch_witness_1 :
    ∃ (s : State) (slot : BitVec 12) (m : MissSlot) (key : Nat) (c : ReqCtx), tfind slot.toNat s.cut.miss = some m
        ∧ m.reqs = [key] ∧ m.upds = [] ∧ tfind key s.cut.reqs = some c ∧ c.waits = [slot.toNat] ∧ (s.modelBuf
        c.slot c.buf).neural = false ∧ s.teu.queue.length ≤ 1024 ∧ s.cut.walkTables = 0 ∧ s.hly.upds = [] ∧
        s.grid.idle = true :=
  ⟨s6, 6, _, 4, _, rfl, (by decide), (by decide), rfl, (by decide), (by decide), (by decide), (by decide), (by
      decide), (by decide)⟩
theorem TableInvalidation_witness_0 :
    ∃ (mask : BitVec 16), mask ≠ 0 :=
  ⟨0x10, (by decide)⟩
theorem TableInvalidation_witness_2 :
    ∃ (s : State), s.cut.walkTables ≠ 0 ∧ s.grid.idle = true :=
  ⟨s11, (by decide), (by decide)⟩
theorem RowWriteBack_witness_0 :
    ∃ (s : State) (table : Fin 16) (entity : W32) (ln : Nat) (l : CacheLine), s.lineOf (↑table) (BitVec.toNat
        entity) = some (ln, l) ∧ List.find? (fun e => e.issuer == Issuer.updateEngine 0 ln) s.rig.ended = none ∧ 0
        < l.wb ∧ s.hly.upds = [] :=
  ⟨s12, 3, 0x4050607, 90322, _, rfl, (by decide), (by decide), (by decide)⟩
theorem RowWriteBack_witness_1 :
    ∃ (s : State) (table : Fin 16) (entity : W32) (ln : Nat) (l : CacheLine), s.lineOf (↑table) (BitVec.toNat
        entity) = some (ln, l) ∧ List.find? (fun e => e.issuer == Issuer.updateEngine 0 ln) s.rig.ended = none ∧ 0
        < l.wb :=
  ⟨s12, 3, 0x4050607, 90322, _, rfl, (by decide), (by decide)⟩
theorem RowWriteBack_witness_2 :
    ∃ (s : State) (table : Fin 16) (entity : W32) (ln : Nat) (l : CacheLine) (c : Nat) (off : Nat), s.lineOf
        (↑table) (BitVec.toNat entity) = some (ln, l) ∧ List.find? (fun e => e.issuer == Issuer.updateEngine 0 ln)
        s.rig.ended = none ∧ 0 < l.wb ∧ l.wbFailed = some c ∧ s.grid.idle = true ∧ (s.rowAddr (↑table)
        (BitVec.toNat entity) + 2 ^ 63).testBit 63 = true ∧ s.isOwn (gModule ((s.rowAddr (↑table) (BitVec.toNat
        entity) + 2 ^ 63) % 2 ^ 56)) = true ∧ placeOf (gOff ((s.rowAddr (↑table) (BitVec.toNat entity) + 2 ^ 63) %
        2 ^ 56)) = Place.hbm off :=
  ⟨s12, 3, 0x4050607, 90322, _, 800, 8633123712, rfl, (by decide), (by decide), (by decide), (by decide), (by
      decide), (by decide), (by decide)⟩
theorem TreeSample_witness_0 :
    ∃ (s : State) (key : Nat) (rest : List Nat) (c : ReqCtx), s.teu.queue = key :: rest ∧ rest.length ≤ 1023 ∧
        tfind key s.cut.reqs = some c ∧ s.mayStart (s.modelBuf c.slot c.buf) (max s.now c.readyAt) = true :=
  ⟨s13, 4, _, _, rfl, (by decide), rfl, (by decide)⟩
theorem TreeSample_witness_1 :
    ∃ (s : State) (id : W64) (key : Nat) (c : ReqCtx), s.reqOf (BitVec.toNat id) = some (key, c) ∧ c.stage =
        Stage.running ∧ (∀ (f : Nat), c.checks ≠ Checks.dropped f) :=
  ⟨s16, 0x4d, 4, _, rfl, (by decide), nofun⟩
theorem NodeScrub_witness_2 :
    ∃ (s : State), (s.node s.teu.scrubNext).inUse = true ∧ (s.node s.teu.scrubNext).slot < 16 :=
  ⟨s17, (by decide), (by decide)⟩
theorem NodeScrub_witness_3 :
    ∃ (s : State), (s.node s.teu.scrubNext).inUse = false :=
  ⟨s27, (by decide)⟩
theorem ReplyTakenAndClosed_witness_0 :
    ∃ (s : State) (id : W64) (key : Nat) (c : ReqCtx) (f : Nat) (g : TxFrame), s.reqOf (BitVec.toNat id) = some
        (key, c) ∧ c.stage = Stage.ready ∧ c.preemptable = false ∧ s.launchFrom c = some f ∧ s.candFrom c.port
        c.car.prio f = f ∧ s.linkUp c.port = true ∧ (s.ethPort c.port).inProg = none ∧ (s.ethPort c.port).susp =
        none ∧ BitVec.toNat (s.rd (R.ETH_PREEMPT_CTRL c.port)) = (s.ethPort c.port).preemptEff ∧ s.choice c.port =
        some g ∧ g.kind = TxKind.reply key ∧ (s.ethPort c.port).waiting = [] ∧ s.readyReplies c.port = [(key, c,
        f)] ∧ tfind key s.cut.reqs = some c ∧ f ≤ s.now :=
  ⟨s21, 0x4d, 4, _, 950, _, rfl, (by decide), (by decide), (by decide), (by decide), (by decide), (by decide), (by
      decide), (by decide), rfl, (by decide), (by decide), (by decide), (by decide), (by decide)⟩
theorem ReplyTakenAndClosed_witness_1 :
    ∃ (s : State) (key : Nat) (c : ReqCtx) (f : Nat) (id : W64), s.reqOf (BitVec.toNat id) = some (key, c) ∧
        c.stage = Stage.launched ∧ c.checks = Checks.passed f ∧ c.ring = none ∧ f ≤ s.trailerDue c ∧ s.cut.reqs =
        [(key, c)] ∧ (s.ethPort c.port).waiting = [] ∧ s.grid.idle = true :=
  ⟨s24, 4, _, 951, 0x4d, rfl, (by decide), (by decide), (by decide), (by decide), (by decide), (by decide), (by decide)⟩
theorem ReplyTakenAndClosed_witness_2 :
    ∃ (s : State) (key : Nat) (c : ReqCtx) (f : Nat) (id : W64), s.reqOf (BitVec.toNat id) = some (key, c) ∧
        c.stage = Stage.launched ∧ c.checks = Checks.dropped f ∧ c.ring = none ∧ s.cut.reqs = [(key, c)] ∧
        (s.ethPort c.port).waiting = [] ∧ s.grid.idle = true :=
  ⟨s25, 4, _, 955, 0x4d, rfl, (by decide), (by decide), (by decide), (by decide), (by decide), (by decide)⟩
theorem GridOffload_witness_0 :
    ∃ (s : State) (key : Nat) (rest : List Nat) (c : ReqCtx), s.cut.bridgeQ = key :: rest ∧ rest.length ≤ 1023 ∧
        tfind key s.cut.reqs = some c :=
  ⟨s26, 4, _, _, rfl, (by decide), rfl⟩
theorem GridOffload_witness_1 :
    ∃ (s : State) (id : W64) (key : Nat) (c : ReqCtx), s.reqOf (BitVec.toNat id) = some (key, c) ∧ c.stage =
        Stage.offload ∧ (∀ (f : Nat), c.checks ≠ Checks.dropped f) :=
  ⟨s27, 0x4d, 4, _, rfl, (by decide), nofun⟩
end Serving

/-! ### Jobs and models: what meets the hypotheses -/

namespace Jobs
def sp : State := portUp 3 rdy
def key (s : State) : State := (s.wrN (R.SEC_OPKEY 2 12) 1).wrN R.HLY_BOOT_NONCE 0x99
def cmsg (op bl : Nat) (nonce : Nat) (ops : List Byte) : List Byte :=
  List.replicate 16 0 ++ beBytes 2 bl ++ List.replicate 14 0 ++ beBytes 2 op ++ beBytes 1 2 ++ beBytes 1 0 ++ beBytes 8 nonce ++ ops
def cm (id : Nat) (msg : List Byte) : CtlMsg :=
  { key := 4, id := id, port := 3, car := {}, msg := msg, isEcho := false }
def cq (l : List CtlMsg) (s : State) : State :=
  { s with hly := { s.hly with ctlQueue := l, ledger := l.map fun m => (m.id, { isOpen := true, kind := 5, slot := 0, port := 3, epoch := 0, order := 4 }) } }
def ml (m fl len : Nat) (h : List Byte) (bl : Nat :=
  172) : CtlMsg := cm 8 (cmsg 1 bl 0x99 (beBytes 1 m ++ beBytes 1 fl ++ beBytes 2 0 ++ beBytes 8 0x1000 ++ beBytes 4 len ++ h))
def lo (c : CtlMsg) (s : State) : State := { s with teu := { s.teu with loads := [{ ctl := c }] } }
def decl (m : Nat) (s : State) : State := s.sf (F.SLOT_CFG_DECLARED m) 1
def sw (s : State) : State :=
  { (decl 2 s) with teu := { s.teu with loads := [{ ctl := ml 2 0 280 [], slot := 2, checked := true, model := { held := true, trees := 1, t1 := 1, depth := 1, nOut := 1, passes := 1, nNodes := 1, roots := [0] }, nodes := [(0, { inUse := true, slot := 2, buf := 1 })] }] } }
def jop (op : Nat) (ops : List Byte) : JobOp := { op := op, operands := ops, bank := 1 }
def jq (l : List JobOp) (s : State) : State := { s with job := { s.job with queue := l } }
def ji (l : List JobOp) (s : State) : State :=
  { s with job := { s.job with inbox := l, banks := [(1, { busy := true })] } }
def pl (slot len : Nat) (h : List Byte) : JobOp :=
  jop opPlanLoad (leBytes 1 slot ++ leBytes 1 0 ++ leBytes 2 0 ++ leBytes 8 0x1000 ++ leBytes 4 len ++ h)
def jd (plan fl mbx tag cnt steps : Nat) : JobOp :=
  jop opJobDispatch (leBytes 1 plan ++ leBytes 1 fl ++ leBytes 2 mbx ++ leBytes 4 tag ++ List.replicate 16 0 ++ leBytes 2 0 ++ leBytes 2 cnt ++ leBytes 4 steps ++ leBytes 2 0 ++ List.replicate 78 0)
def d0 (fl : Nat) : Dispatch :=
  { plan := 1, image := plan1 fl 3, train := true, lead := true, mailbox := 7, tag := 5, steps := 3, modules := 2, stepAddr := gAddr 9 0x1000, phase := .runWait, run := 2, accepted := 1, shardCount := 1 }
def cur (d : Dispatch) (s : State) : State :=
  { s with job := { s.job with cur := some d, mail := [(7, { state := 1 })] } }
def pim : List Byte := plan1 0 1
def tim : List Byte := tree1
def s5 : State := cq [cm 77 (cmsg 1 108 0x99 [])] (key sp)
def s11 : State := lo (ml 2 0 280 [1]) sp
def s16 : State := lo (ml 2 0 100 (Config.sha384 (tim.take 100))) (decl 2 sp)
def s18 : State := sw { sp with teu := { sp.teu with bufs := [(4, { held := true, trees := 1, nOut := 1 })] } }
def s19 : State :=
  { sp with teu := { sp.teu with bufs := [(5, { held := true, leaving := true }), (4, { held := true })], nodes := [(3, { inUse := true, slot := 2, buf := 1 }), (4, { inUse := true, slot := 2, buf := 0 })] } }
def s20 : State := jq [pl 5 1000 (Config.sha384 pim)] (sp.sf F.JOB_PLAN_STORE_SIZE_MIB 4)
def s24 : State := ji [jd 5 1 3 9 1 0] sp
def s25 : State := ji [jd 70 1 3 9 1 0] sp
def s29 : State :=
  { (ji [jd 5 1 3 9 1 0] sp) with job := { (ji [jd 5 1 3 9 1 0] sp).job with queue := List.replicate 256 (jd 5 0 1 1 1 0) } }
def s30 : State :=
  { (ji [jd 5 1 7 9 1 0] sp) with job := { (ji [jd 5 1 7 9 1 0] sp).job with mail := [(7, { state := 2 })] } }
def s33 : State :=
  { sp with job := { sp.job with inbox := [jop opMailboxRead (leBytes 8 7)], banks := [(1, {busy := true})], mail := [(7, { state := 2, tag := 9 })] } }
def s34 : State :=
  { sp with job := { sp.job with inbox := [jop opMailboxRelease (leBytes 8 7)], banks := [(1, {busy := true})], mail := [(7, { state := 2, tag := 9 })] } }
def s36 : State :=
  { sp with job := { sp.job with inbox := [jop opMailboxRelease (leBytes 8 7)], banks := [(1, {busy := true})] } }
def s37 : State :=
  { sp with job := { sp.job with banks := [(0, { staged := [(0, 4)] }), (1, { staged := [(0, 3), (1, 5)] }), (2, { claimed := some 5, gone := true, touched := 900 })] } }
def s38 : State :=
  { (sp.sf F.RIG_REMOTE_CTRL_MASK_BLOCKS 0xffff_ffff_ffff) with job := { sp.job with banks := [(2, { claimed := some 6, gone := true, touched := 900 })] } }
def s40 : State := cur (d0 0) sp
def s47 : State := cur { d0 8 with phase := .commitWait, steps := 2 } sp
def s48 : State := cur { d0 8 with lead := false } sp
def s49 : State := cur { d0 8 with lead := false, phase := .commitWait } sp
theorem ControlVerify_witness_0 :
    ∃ (s : State) (m : CtlMsg) (rest : List CtlMsg), s.hly.ctlQueue = m :: rest ∧ m.isEcho = false ∧ s.boot.failing
        = false :=
  ⟨s5, _, _, rfl, (by decide), (by decide)⟩
theorem ModelLoad_witness_0 :
    ∃ (s : State) (o : LoadOp) (rest : List LoadOp), s.teu.loads = o :: rest ∧ o.checked = false ∧ bodyLenOf
        o.ctl.msg = 172 ∧ beAt o.ctl.msg 44 1 < 16 ∧ beAt o.ctl.msg 45 1 < 4 ∧ beAt o.ctl.msg 46 2 = 0 ∧ (beAt
        o.ctl.msg 48 8).testBit 63 = false ∧ s.slotDeclared (beAt o.ctl.msg 44 1) = false :=
  ⟨s11, _, _, rfl, (by decide), (by decide), (by decide), (by decide), (by decide), (by decide), (by decide)⟩
theorem ModelLoad_witness_1 :
    ∃ (s : State) (o : LoadOp) (rest : List LoadOp) (ext : Option (List Byte)), s.teu.loads = o :: rest ∧ o.checked
        = false ∧ bodyLenOf o.ctl.msg = 172 ∧ beAt o.ctl.msg 44 1 < 16 ∧ beAt o.ctl.msg 45 1 < 4 ∧ beAt o.ctl.msg
        46 2 = 0 ∧ (beAt o.ctl.msg 48 8).testBit 63 = false ∧ s.slotDeclared (beAt o.ctl.msg 44 1) = true ∧ beAt
        o.ctl.msg 56 4 ≤ 16777472 ∧ ext = none :=
  ⟨s16, _, _, none, rfl, (by decide), (by decide), (by decide), (by decide), (by decide), (by decide), (by decide),
      (by decide), (by decide)⟩
theorem ModelLoad_witness_2 :
    ∃ (s : State) (o : LoadOp) (rest : List LoadOp) (ext : Option (List Byte)) (l : List Byte), s.teu.loads = o ::
        rest ∧ o.checked = false ∧ bodyLenOf o.ctl.msg = 172 ∧ beAt o.ctl.msg 44 1 < 16 ∧ beAt o.ctl.msg 45 1 < 4 ∧
        beAt o.ctl.msg 46 2 = 0 ∧ (beAt o.ctl.msg 48 8).testBit 63 = false ∧ s.slotDeclared (beAt o.ctl.msg 44 1) =
        true ∧ beAt o.ctl.msg 56 4 ≤ 16777472 ∧ ext = some l ∧ s.grid.idle = true :=
  ⟨s16, _, _, (some [1, 2]), _, rfl, (by decide), (by decide), (by decide), (by decide), (by decide), (by decide),
      (by decide), (by decide), rfl, (by decide)⟩
theorem ModelSwitch_witness_0 :
    ∃ (s : State) (o : LoadOp) (rest : List LoadOp), s.teu.loads = o :: rest ∧ o.checked = true ∧ o.cold = false ∧
        o.slot < 16 ∧ o.model.neural = false ∧ s.bufBound o.slot (1 - s.activeBuf o.slot) = false ∧ s.run?
        (neuralKey o.slot (1 - s.activeBuf o.slot)) = none ∧ (List.map Prod.fst o.nodes).Nodup ∧ s.grid.idle = true :=
  ⟨s18, _, _, rfl, (by decide), (by decide), (by decide), (by decide), (by decide), (by decide), (by decide), (by
      decide)⟩
theorem ModelSwitch_witness_1 :
    ∃ (s : State) (m : Fin 16) (b : Fin 2), (s.modelBuf ↑m ↑b).leaving = true ∧ s.bufBound ↑m ↑b = false ∧
        s.boot.failing = false ∧ s.run? (neuralKey ↑m ↑b) = none :=
  ⟨s19, 2, 1, (by decide), (by decide), (by decide), (by decide)⟩
theorem PlanLoad_witness_0 :
    ∃ (s : State) (o : JobOp) (rest : List JobOp), s.job.cur = none ∧ s.job.queue = o :: rest ∧ o.op = opPlanLoad ∧
        o.fld 0 1 < 64 ∧ (o.fld 4 8).testBit 63 = false ∧ s.boot.failing = false :=
  ⟨s20, _, _, (by decide), rfl, (by decide), (by decide), (by decide), (by decide)⟩
theorem JobDispatch_witness_0 :
    ∃ (s : State) (o : JobOp), List.find? (fun o => decide (o.op = opJobDispatch)) s.job.inbox = some o ∧
        s.boot.failing = false ∧ o.dispatchBad = true :=
  ⟨s25, _, rfl, (by decide), (by decide)⟩
theorem JobDispatch_witness_1 :
    ∃ (s : State) (o : JobOp), List.find? (fun o => decide (o.op = opJobDispatch)) s.job.inbox = some o ∧
        s.boot.failing = false ∧ o.dispatchBad = false ∧ 256 ≤ s.job.queue.length :=
  ⟨s29, _, rfl, (by decide), (by decide), (by decide)⟩
theorem JobDispatch_witness_2 :
    ∃ (s : State) (o : JobOp), List.find? (fun o => decide (o.op = opJobDispatch)) s.job.inbox = some o ∧
        s.boot.failing = false ∧ o.dispatchBad = false ∧ s.job.queue.length < 256 ∧ (s.mailbox (o.fld 2 2)).state ≠
        0 :=
  ⟨s30, _, rfl, (by decide), (by decide), (by decide), (by decide)⟩
theorem JobDispatch_witness_3 :
    ∃ (s : State) (o : JobOp), List.find? (fun o => decide (o.op = opJobDispatch)) s.job.inbox = some o ∧
        s.boot.failing = false ∧ o.dispatchBad = false ∧ s.job.queue.length < 256 ∧ (s.mailbox (o.fld 2 2)).state =
        0 :=
  ⟨s24, _, rfl, (by decide), (by decide), (by decide), (by decide)⟩
theorem MailboxReadAndRelease_witness_1 :
    ∃ (s : State) (o : JobOp) (k : Nat), List.find? (fun o => decide (o.op = opMailboxRead)) s.job.inbox = some o ∧
        o.mailboxOf = some k ∧ s.boot.failing = false :=
  ⟨s33, _, 7, rfl, (by decide), (by decide)⟩
theorem MailboxReadAndRelease_witness_2 :
    ∃ (s : State) (r : Src) (m : BitVec 12), s.boot.failing = false ∧ s.ctlRefused r R.JOB_MBX_RELEASE true = none
        ∧ (s.mailbox m.toNat).state = 2 :=
  ⟨s34, .pcie, 7, (by decide), (by decide), (by decide)⟩
theorem MailboxReadAndRelease_witness_3 :
    ∃ (s : State) (r : Src) (m : BitVec 12), s.boot.failing = false ∧ s.ctlRefused r R.JOB_MBX_RELEASE true = none
        ∧ (s.mailbox m.toNat).state ≠ 2 :=
  ⟨s49, .pcie, 0xfff, (by decide), (by decide), (by decide)⟩
theorem MailboxReadAndRelease_witness_4 :
    ∃ (s : State) (r : Src) (c : Nat), s.boot.failing = false ∧ s.ctlRefused r R.JOB_MBX_RELEASE true = some c :=
  ⟨s49, (.strand 3), 2, (by decide), (by decide)⟩
theorem MailboxReadAndRelease_witness_5 :
    ∃ (s : State) (o : JobOp) (k : Nat), List.find? (fun o => decide (o.op = opMailboxRelease)) s.job.inbox = some
        o ∧ o.mailboxOf = some k ∧ s.boot.failing = false :=
  ⟨s36, _, 7, rfl, (by decide), (by decide)⟩
theorem JobSubmission_witness_0 :
    ∃ (s : State) (src : Src) (k : Nat), (s.bank 0).busy = false ∧ (s.bank 1).busy = false ∧ s.boot.failing = false
        ∧ (src = Src.mgmt ∧ k = 0 ∨ src = Src.pcie ∧ k = 1) ∧ (BitVec.toNat (tget (fun x => 0) (s.bank k).staged 0)
        % 2 ^ 16 = opJobDispatch ∨ BitVec.toNat (tget (fun x => 0) (s.bank k).staged 0) % 2 ^ 16 = opMailboxRead ∨
        BitVec.toNat (tget (fun x => 0) (s.bank k).staged 0) % 2 ^ 16 = opMailboxRelease) :=
  ⟨s37, .pcie, 1, (by decide), (by decide), (by decide), (by decide), (by decide)⟩
theorem JobSubmission_witness_1 :
    ∃ (s : State) (m : ModNum) (o : ModNum), (s.bank 2).claimed = some (BitVec.toNat o) ∧ o ≠ m ∧ s.boot.failing =
        false ∧ s.ctlRefused (Src.rigging m) 15729792 true = none :=
  ⟨s38, 0xfff, 6, (by decide), (by decide), (by decide), (by decide)⟩
theorem JobSubmission_witness_2 :
    ∃ (s : State) (m : ModNum), (s.bank 2).claimed = some (BitVec.toNat m) ∧ (s.bank 2).busy = false ∧ (s.bank
        2).gone = true :=
  ⟨s38, 6, (by decide), (by decide), (by decide)⟩
theorem JobSubmission_witness_3 :
    ∃ (s : State) (o : Nat), (s.bank 2).claimed = some o ∧ (s.bank 2).busy = false ∧ s.grid.idle = true :=
  ⟨s38, 6, (by decide), (by decide), (by decide)⟩
theorem TrainDispatch_witness_0 :
    ∃ (s : State) (d : Dispatch) (n : Option W64), s.job.cur = some d ∧ d.train = true ∧ d.lead = true ∧ d.phase =
        TrainPhase.runWait ∧ s.grid.seqOps = [] ∧ (seqsOf (planSeqs d.image)).any s.seqInUse = false ∧ s.stepWord
        d.stepAddr n = some (d.modules * d.run) ∧ d.accepted < d.steps ∧ s.boot.failing = false :=
  ⟨s40, _, (some 0x0000000000000004#64), rfl, (by decide), (by decide), (by decide), (by decide), (by decide), (by
      decide), (by decide), (by decide)⟩
theorem TrainDispatch_witness_1 :
    ∃ (s : State) (d : Dispatch) (n : Option W64), s.job.cur = some d ∧ d.train = true ∧ d.lead = true ∧ d.phase =
        TrainPhase.commitWait ∧ s.grid.seqOps = [] ∧ s.stepWord (d.stepAddr + 8) n = some (d.modules * (d.accepted
        + 1)) ∧ s.boot.failing = false :=
  ⟨s47, _, (some 0x0000000000000004#64), rfl, (by decide), (by decide), (by decide), (by decide), (by decide), (by
      decide)⟩
theorem TrainDispatch_witness_2 :
    ∃ (s : State) (d : Dispatch) (n : Option W64) (w : Nat), s.job.cur = some d ∧ d.train = true ∧ d.lead = false ∧
        s.stepWord (d.stepAddr + 16) n = some w ∧ w % 2 ^ 40 = d.run % 2 ^ 40 ∧ d.phase = TrainPhase.runWait ∧
        d.accepted < d.steps ∧ s.boot.failing = false :=
  ⟨s48, _, (some 0x0000100000000002#64), 17592186044418, rfl, (by decide), (by decide), (by decide), (by decide),
      (by decide), (by decide), (by decide)⟩
end Jobs

/-! ### The grid: what meets the hypotheses -/

namespace Grid
def sc : Nat := siteOf 1 2 3
def sm : Nat := siteOf 1 2 5
def base : State := (rdy.sf (F.GRID_AWAIT_LIMIT_TICKS 1) 4)
def tl (code : List W64) (k : Nat := 0) : Tile := { slots := [some k], code := code, strands := [(k, {})] }
def run1 (site : Nat) (t : Tile) : Run :=
  { owner := 0x77, seqMask := 3, last := 500, from_ := 400, cycle := 50, tiles := [(site, t)], bucket := [4], dims := [4] }
def wr (r : Run) (s : State :=
  base) (k : Nat := 0) : State := { s with grid := { s.grid with runs := [(k, r)], acNow := [(acKey sc 0 2, 3)] } }
def ins (op n : Nat) (fs : List (Nat × Nat)) (site : Nat :=
  sc) (f : Tile → Tile := id) (k : Nat := 0) : State := wr (run1 site (f (tl (mkIns op n fs ++ mkIns ocEnd 1 []) k)))
def loopSt (cnt len : Nat) : State := ins ocLoop 1 [(cnt,16),(0,3),(len,12)]
def inner1 : State :=
  wr (run1 sc { tl (mkIns ocNop 1 [] ++ mkIns ocNop 1 []) with strands := [(0, { pc := 1, loops := [(1, 2, 1), (0, 2, 3)] })] })
def sendF (d r c tgt ch1 ch2 src dst n : Nat) : List (Nat × Nat) :=
  [(d,2),(r,5),(c,6),(tgt,4),(ch1,6),(ch2,6),(src,13),(dst,13),(n,8)]
def send (fs : List (Nat × Nat)) (site : Nat :=
  sc) (f : Run → Run := id) : State := wr (f (run1 site (tl (mkIns ocSend 2 fs ++ mkIns ocEnd 1 []))))
def mmF : List (Nat × Nat) :=
  [(0,2),(0,2),(0,4),(0,4),(0,104),(0xFF,8),(0xFF,8),(2,12),(1,12),(1,12),(2,16),(0,3),(0,3),(0,3),(0,3),(0,6),(0,2),(0,8),(0,54),(0,12),(0,12),(0,2),(0,52),(0,2),(0,5),(1,6),(3,4)]
def resF : List (Nat × Nat) := [(0,13),(0,8),(0,4),(0,25),(5,12),(0,3),(0,3)]
def awaitRun (m : Option Nat) (iss : Nat) : State :=
  wr { run1 sc (tl (mkIns ocEnd 1 [])) with awaits := [⟨44, sc, 0, 0, acKey sc 0 1, 7, iss, m⟩] }
def freeze : State := { base with grid := { base.grid with freezes := [(490, 560), (570, 580)] } }
def matStart (st : Nat) : State :=
  wr (run1 sc { tl (mkIns ocEnd 1 []) with mats := [{ q := 1, w := 0, pc := 0, start := st, steps := 2 }], rescs := [{ w := 0, pc := 0, strand := 4, start := st }] })
def furl (site : Nat :=
  sc) : State := wr (run1 site { tl (mkIns ocEnd 1 []) with furled := 0x6, down := 0x2, furlFrom := [(2, 50)] })
def erase : State :=
  (fun s => { s with grid := { s.grid with sram := [(sramKey sc 3 + 2, 5), (sramKey sc 3 + 3, 6), (sramKey sc 4 + 2, 7)] } }) (wr (run1 sc { tl (mkIns ocEnd 1 []) with furled := 0x14, down := 0x14, erase := [(4, 50)] }))
def scrub : State :=
  { ((base.sf (F.MEM_SCRUB_CTRL_TILE_INTERVAL 1) 5).sf (F.MEM_SCRUB_CTRL_HBM_INTERVAL 1) 5) with grid := { base.grid with scrubRow := [(sc, 8191)], patrol := [(3, 7)] } }
def dirty : State :=
  { scrub with hold := [(hbmDie (stackOff 3 1792) * 32768 + holdSet (hbmLocal (stackOff 3 1792) / 256), { ways := [(0, { line := hbmLocal (stackOff 3 1792) / 256, valid := 15, dirty := 2 })] })] }
def cset (en q ch nb ac : Nat) (bind : Option (Nat × Nat × Nat)) (cen : List (Nat × Census)) (full : Bool :=
  false) : State :=
  let s := ins ocCset 1 [(en,1),(q,3),(ch,24),(nb,12),(ac,2)] sc fun t => { t with bind := bind, census := cen }
  if full then { s with grid := { s.grid with dma := (List.range 256).map fun k => { id := k, site := sm, kind := 1 } } } else s
def dsp : Dispatch :=
  { plan := 1, image := plan1 0 0, mailbox := 7, tag := 5, shardFirst := 2, shardCount := 1, args := [1, 2] }
def curD (d : Dispatch) (s : State :=
  base) : State := { s with job := { s.job with cur := some d, mail := [(7, { state := 1 })] } }
def endRun (f : Option (Nat × Nat)) (d : Dispatch :=
  { dsp with running := true }) : State := curD d (wr { run1 sc { tl [] with furled := 6 } with isOver := true, fault := f })
def s5 : State := inner1
def s10 : State := loopSt 7 0
def s11 : State := ins ocSetac 1 [(2,2),(0xfffffffe,32)]
def s12 : State := ins ocFurl 1 [(0x13,16)] sc fun t => { t with furled := 1, furlFrom := [(0, 3)] }
def s13 : State :=
  (fun s => { s with grid := { s.grid with residency := [(sc, [⟨3, 4, 0x99⟩])] } }) (ins ocFurl 1 [(0x13,16)])
def s14 : State := ins ocUnfurl 1 [(0x13,16)] sc fun t => { t with furled := 0x13, erase := [(4, 60)] }
def s15 : State := ins ocAwait 1 [(1,2),(9,32)]
def s18 : State := awaitRun (some 496) 480
def s19 : State := awaitRun none 420
def s21 : State := freeze
def s27 : State := send (sendF 3 9 7 0 3 4 5 6 2) sc (fun r => { r with links := [(51, 3)] })
def s29 : State := ins ocVec 1 [(2,4),(3,13),(4,13),(6,13)]
def s31 : State := ins ocMatmul 6 mmF sc fun t => { t with matPrev := [(0, (49, 3))] }
def s33 : State := ins ocRescale 2 resF sc (fun t => { t with resPrev := some 48 }) 4
def s34 : State := matStart 50
def s36 : State := furl sm
def s37 : State := erase
def s42 : State := dirty
def s43 : State := cset 1 1 4 8 2 none []
def s44 : State := cset 0 1 4 8 2 (some (1, 4, 8)) [(3, { elems := 5 }), (4, {})]
def s45 : State := cset 1 1 4 8 2 (some (1, 4, 8)) [(3, { elems := 5 }), (4, { elems := 2 })] true
def s46 : State :=
  { base with grid := { base.grid with flushes := [(3, { seq := 1, ac := some 77, left := 0 }), (4, { seq := 1, ac := some 77, left := 2 })], acs := [(77, 5)] } }
def s49 : State := curD dsp { base with grid := { base.grid with zeroing := [(5, 0)] } }
def s50 : State := curD { dsp with image := mkPlan 0 0 1 0 1 1 0 [0] [(1, 0, 0, bucketsS [([8], 5)])], dims := [0] }
def s51 : State := curD { dsp with image := mkPlan 0 0 1 0 1 1 0 [0] [(1, 0, 0, bucketsS [([8], 5)])], dims := [9] }
def s52 : State :=
  curD { dsp with image := mkPlan 0 0 1 0 0 1 0 [] [(1, 0, 0, bucketsS [([], 5)]), (2, 0, 0, mkTile (sitef 1 2 5) [some 0] [(0, 0)] (mkIns ocEnd 1 []))] }
def s53 : State := endRun none
def s54 : State := endRun (some (50, 4))
def s55 : State := endRun none { dsp with running := true, image := plan1 0 0, shardCount := 2 }
theorem GridIssue_witness_0 :
    ∃ (s : State) (die : Fin 4) (row : Fin 32) (col : Fin 48) (strand : Byte) (i : Issue), s.issues i die row col
        strand ocNop :=
  ⟨s5, 1, 2, 3, 0, _, (issues_intro' _ _ _ _ _ _ _ rfl rfl rfl (by decide) (by decide) (by decide))⟩
theorem GridIssue_witness_1 :
    ∃ (s : State) (die : Fin 4) (row : Fin 32) (col : Fin 48) (strand : Byte) (i : Issue), s.issues i die row col
        strand ocEnd :=
  ⟨s37, 1, 2, 3, 0, _, (issues_intro' _ _ _ _ _ _ _ rfl rfl rfl (by decide) (by decide) (by decide))⟩
theorem GridIssue_witness_2 :
    ∃ (s : State) (die : Fin 4) (row : Fin 32) (col : Fin 48) (strand : Byte) (i : Issue), s.issues i die row col
        strand ocLoop :=
  ⟨s10, 1, 2, 3, 0, _, (issues_intro' _ _ _ _ _ _ _ rfl rfl rfl (by decide) (by decide) (by decide))⟩
theorem GridIssue_witness_3 :
    ∃ (s : State) (die : Fin 4) (row : Fin 32) (col : Fin 48) (strand : Byte) (i : Issue), s.issues i die row col
        strand ocSetac :=
  ⟨s11, 1, 2, 3, 0, _, (issues_intro' _ _ _ _ _ _ _ rfl rfl rfl (by decide) (by decide) (by decide))⟩
theorem GridIssue_witness_4 :
    ∃ (s : State) (die : Fin 4) (row : Fin 32) (col : Fin 48) (strand : Byte) (i : Issue), s.issues i die row col
        strand ocFurl ∧ isM i.site = false ∧ s.holdsForeign i.site i.run.owner = true :=
  ⟨s13, 1, 2, 3, 0, _, (issues_intro' _ _ _ _ _ _ _ rfl rfl rfl (by decide) (by decide) (by decide)), (by decide),
      (by decide)⟩
theorem GridIssue_witness_5 :
    ∃ (s : State) (die : Fin 4) (row : Fin 32) (col : Fin 48) (strand : Byte) (i : Issue), s.issues i die row col
        strand ocFurl ∧ isM i.site = false ∧ s.holdsForeign i.site i.run.owner = false :=
  ⟨s12, 1, 2, 3, 0, _, (issues_intro' _ _ _ _ _ _ _ rfl rfl rfl (by decide) (by decide) (by decide)), (by decide),
      (by decide)⟩
theorem GridIssue_witness_6 :
    ∃ (s : State) (die : Fin 4) (row : Fin 32) (col : Fin 48) (strand : Byte) (i : Issue), s.issues i die row col
        strand ocUnfurl ∧ isM i.site = false :=
  ⟨s14, 1, 2, 3, 0, _, (issues_intro' _ _ _ _ _ _ _ rfl rfl rfl (by decide) (by decide) (by decide)), (by decide)⟩
theorem GridHold_witness_0 :
    ∃ (s : State) (die : Fin 4) (row : Fin 32) (col : Fin 48) (strand : Byte) (i : Issue), s.issues i die row col
        strand ocAwait :=
  ⟨s15, 1, 2, 3, 0, _, (issues_intro' _ _ _ _ _ _ _ rfl rfl rfl (by decide) (by decide) (by decide))⟩
theorem GridHold_witness_1 :
    ∃ (s : State) (r : Run), s.run? 0 = some r ∧ s.held r = true ∧ (∀ (a : Await), a ∈ r.awaits → a.met.isSome =
        true) :=
  ⟨s18, _, rfl, (by decide), (by decide)⟩
theorem GridHold_witness_2 :
    ∃ (s : State) (r : Run) (a : Await), s.run? 0 = some r ∧ r.awaits = [a] ∧ a.met = none ∧ a.issued ≠ s.arith ∧
        siteDie a.site < 4 ∧ a.strand < 256 ∧ s.gf (F.GRID_AWAIT_LIMIT_TICKS (siteDie a.site)) ≠ 0 ∧ 2 * (a.issued
        + 6) + 32 * s.gf (F.GRID_AWAIT_LIMIT_TICKS (siteDie a.site)) + 2 ≤ s.now ∧ r.fault = none ∧ r.faults = [] ∧
        r.neural = false ∧ s.boot.failing = false :=
  ⟨s19, _, _, rfl, rfl, (by decide), (by decide), (by decide), (by decide), (by decide), (by decide), (by decide),
      (by decide), (by decide), (by decide)⟩
theorem GridHold_witness_3 :
    ∃ (s : State), s.grid.freezes ≠ [] ∧ s.grid.runs = [] ∧ s.boot.failing = false :=
  ⟨s21, (by decide), (by decide), (by decide)⟩
theorem GridWork_witness_0 :
    ∃ (s : State) (die : Fin 4) (row : Fin 32) (col : Fin 48) (strand : Byte) (i : Issue), s.issues i die row col
        strand ocSend ∧ sendLegal i = true ∧ (hopSites (siteOf i.ins.sendDie i.ins.sendRow i.ins.sendCol)
        (sendRoute (↑die) (↑row) (↑col) i.ins.sendDie i.ins.sendRow i.ins.sendCol (i.ins.f 17 6) (i.ins.f 23
        6))).any (s.trespass i.run) = false :=
  ⟨s27, 1, 2, 3, 0, _, (issues_intro' _ _ _ _ _ _ _ rfl rfl rfl (by decide) (by decide) (by decide)), (by decide),
      (by decide)⟩
theorem GridWork_witness_1 :
    ∃ (s : State) (die : Fin 4) (row : Fin 32) (col : Fin 48) (strand : Byte) (i : Issue), s.issues i die row col
        strand ocVec ∧ isM i.site = false ∧ (∀ (u : Nat × Run × Tile), u ∈ s.usersOf (siteN die row col) →
        u.snd.snd.erase = []) ∧ i.tile.furledAt i.p = 0 ∧ s.foreign i.site (i.ins.f 4 13) i.run.owner = false ∧
        s.foreign i.site (i.ins.f 17 13) i.run.owner = false ∧ s.rowMark i.site (i.ins.f 4 13) = false ∧ s.rowMark
        i.site (i.ins.f 17 13) = false :=
  ⟨s29, 1, 2, 3, 0, _, (issues_intro' _ _ _ _ _ _ _ rfl rfl rfl (by decide) (by decide) (by decide)), (by decide),
      (by decide), (by decide), (by decide), (by decide), (by decide), (by decide)⟩
theorem GridWork_witness_2 :
    ∃ (s : State) (die : Fin 4) (row : Fin 32) (col : Fin 48) (strand : Byte) (i : Issue), s.issues i die row col
        strand ocMatmul ∧ isM i.site = false ∧ BitVec.toNat strand < 4 ∧ sheetsLegal i.tile i.ins (BitVec.toNat
        strand) = true :=
  ⟨s31, 1, 2, 3, 0, _, (issues_intro' _ _ _ _ _ _ _ rfl rfl rfl (by decide) (by decide) (by decide)), (by decide),
      (by decide), (by decide)⟩
theorem GridWork_witness_3 :
    ∃ (s : State) (die : Fin 4) (row : Fin 32) (col : Fin 48) (strand : Byte) (i : Issue), s.issues i die row col
        strand ocRescale ∧ rescaleLegal i = true :=
  ⟨s33, 1, 2, 3, 4, _, (issues_intro' _ _ _ _ _ _ _ rfl rfl rfl (by decide) (by decide) (by decide)), (by decide)⟩
theorem GridWork_witness_4 :
    ∃ (s : State) (die : Fin 4) (row : Fin 32) (col : Fin 48) (key : Nat) (r : Run) (x : Tile) (q : Fin 4) (m :
        MatRun), s.usersOf (siteN die row col) = [(key, r, x)] ∧ s.run? key = some r ∧ s.runs r = true ∧
        s.boot.failing = false ∧ List.find? (fun m => decide (m.q = ↑q) && decide (r.cycle ≤ m.start)) x.mats =
        some m ∧ m.start = r.cycle :=
  ⟨s34, 1, 2, 3, 0, _, _, 1, _, rfl, (by decide), (by decide), (by decide), rfl, (by decide)⟩
theorem GridWork_witness_5 :
    ∃ (s : State) (die : Fin 4) (row : Fin 32) (col : Fin 48) (key : Nat) (r : Run) (x : Tile) (m : ResRun),
        s.usersOf (siteN die row col) = [(key, r, x)] ∧ s.run? key = some r ∧ s.runs r = true ∧ s.boot.failing =
        false ∧ List.find? (fun m => decide (r.cycle ≤ m.start)) x.rescs = some m ∧ m.start = r.cycle :=
  ⟨s34, 1, 2, 3, 0, _, _, _, rfl, (by decide), (by decide), (by decide), rfl, (by decide)⟩
theorem FurlAndUnfurlEnd_witness_0 :
    ∃ (s : State) (die : Fin 4) (row : Fin 32) (col : Fin 48) (key : Nat) (r : Run) (x : Tile), s.usersOf (siteN
        die row col) = [(key, r, x)] ∧ s.run? key = some r ∧ r.tile? (siteN die row col) = some x ∧ s.runs r = true
        ∧ x.furled ≠ 0 ∧ (∀ (e : Nat × Nat), e ∈ x.furlFrom → e.snd ≤ r.cycle) ∧ x.erase = [] ∧ x.furled < 2 ^ 16 ∧
        (s.grid.side.any fun w => decide (w.site = siteN die row col)) = false ∧ s.boot.failing = false ∧ x.furled
        &&& (65535 ^^^ x.down) ≠ 0 :=
  ⟨s36, 1, 2, 5, 0, _, _, rfl, (by decide), (by decide), (by decide), (by decide), (by decide), (by decide), (by
      decide), (by decide), (by decide), (by decide)⟩
theorem FurlAndUnfurlEnd_witness_1 :
    ∃ (s : State) (die : Fin 4) (row : Fin 32) (col : Fin 48) (key : Nat) (r : Run) (x : Tile) (bank : Fin 16), isM
        (siteN die row col) = false ∧ s.usersOf (siteN die row col) = [(key, r, x)] ∧ s.run? key = some r ∧ r.tile?
        (siteN die row col) = some x ∧ s.runs r = true ∧ x.erase = [(↑bank, r.cycle)] ∧ s.boot.failing = false :=
  ⟨s37, 1, 2, 3, 0, _, _, 4, (by decide), rfl, (by decide), (by decide), (by decide), (by decide), (by decide)⟩
theorem ZeroingAndScrubbing_witness_0 :
    ∃ (s : State), (∀ (e : Nat × Nat), e ∈ s.grid.zeroing → e.snd = 0) ∧ s.grid.releases = [] ∧ s.boot.failing =
        false :=
  ⟨s55, (by decide), (by decide), (by decide)⟩
theorem ZeroingAndScrubbing_witness_1 :
    ∃ (s : State) (owner : W32), s.boot.failing = false ∧ s.ownerRuns (BitVec.toNat owner) = false :=
  ⟨s55, 0x99, (by decide), (by decide)⟩
theorem ZeroingAndScrubbing_witness_2 :
    ∃ (s : State) (owner : W32), s.boot.failing = false ∧ s.ownerRuns (BitVec.toNat owner) = true :=
  ⟨s55, 0x77, (by decide), (by decide)⟩
theorem ZeroingAndScrubbing_witness_3 :
    ∃ (s : State) (die : Fin 4), s.boot.failing = false ∧ s.gf (F.MEM_SCRUB_CTRL_TILE_INTERVAL ↑die) ≠ 0 :=
  ⟨s42, 1, (by decide), (by decide)⟩
theorem ZeroingAndScrubbing_witness_5 :
    ∃ (s : State) (die : Fin 4) (row : Fin 32) (col : Fin 48), s.boot.failing = false ∧ s.gf
        (F.MEM_SCRUB_CTRL_TILE_INTERVAL ↑die) ≠ 0 ∧ s.grid.uncorr.contains (siteN die row col * 4 + sramKind (siteN
        die row col), tget (fun x => 0) s.grid.scrubRow (siteN die row col)) = false :=
  ⟨s42, 1, 2, 5, (by decide), (by decide), (by decide)⟩
theorem ZeroingAndScrubbing_witness_6 :
    ∃ (s : State) (stack : Fin 8), s.gf (F.MEM_SCRUB_CTRL_HBM_INTERVAL (↑stack / 2)) ≠ 0 ∧ tget (fun x => 0)
        s.grid.patrol ↑stack + 1 < stackSize / 256 ∧ s.holdDirty (stackOff (↑stack) (256 * tget (fun x => 0)
        s.grid.patrol ↑stack)) = true :=
  ⟨s42, 3, (by decide), (by decide), (by decide)⟩
theorem ZeroingAndScrubbing_witness_7 :
    ∃ (s : State) (stack : Fin 8), s.gf (F.MEM_SCRUB_CTRL_HBM_INTERVAL (↑stack / 2)) ≠ 0 ∧ tget (fun x => 0)
        s.grid.patrol ↑stack + 1 < stackSize / 256 ∧ s.holdDirty (stackOff (↑stack) (256 * tget (fun x => 0)
        s.grid.patrol ↑stack)) = false :=
  ⟨s42, 2, (by decide), (by decide), (by decide)⟩
theorem InvocationCourse_witness_0 :
    ∃ (s : State) (die : Fin 4) (row : Fin 32) (col : Fin 48) (strand : Byte) (i : Issue), s.issues i die row col
        strand ocCset ∧ i.run.neural = false ∧ i.run.variant ≠ 3 ∧ (i.ins.f 0 1 = 0 ∨ i.run.seqMask.testBit
        (i.ins.f 1 3) = true) ∧ i.tile.bind = none :=
  ⟨s43, 1, 2, 3, 0, _, (issues_intro' _ _ _ _ _ _ _ rfl rfl rfl (by decide) (by decide) (by decide)), (by decide),
      (by decide), (by decide), (by decide)⟩
theorem InvocationCourse_witness_1 :
    ∃ (s : State) (die : Fin 4) (row : Fin 32) (col : Fin 48) (strand : Byte) (i : Issue) (b : Nat × Nat × Nat),
        s.issues i die row col strand ocCset ∧ i.run.neural = false ∧ i.run.variant ≠ 3 ∧ (i.ins.f 0 1 = 0 ∨
        i.run.seqMask.testBit (i.ins.f 1 3) = true) ∧ i.tile.bind = some b ∧ (List.filter (fun e => decide (e.snd ≠
        { })) i.tile.census).length ≤ s.dmaFree (triadM i.site) :=
  ⟨s44, 1, 2, 3, 0, _, _, (issues_intro' _ _ _ _ _ _ _ rfl rfl rfl (by decide) (by decide) (by decide)), (by
      decide), (by decide), (by decide), rfl, (by decide)⟩
theorem InvocationCourse_witness_2 :
    ∃ (s : State) (die : Fin 4) (row : Fin 32) (col : Fin 48) (strand : Byte) (i : Issue) (b : Nat × Nat × Nat),
        s.issues i die row col strand ocCset ∧ i.run.neural = false ∧ i.run.variant ≠ 3 ∧ (i.ins.f 0 1 = 0 ∨
        i.run.seqMask.testBit (i.ins.f 1 3) = true) ∧ i.tile.bind = some b ∧ s.dmaFree (triadM i.site) <
        (List.filter (fun e => decide (e.snd ≠ { })) i.tile.census).length :=
  ⟨s45, 1, 2, 3, 0, _, _, (issues_intro' _ _ _ _ _ _ _ rfl rfl rfl (by decide) (by decide) (by decide)), (by
      decide), (by decide), (by decide), rfl, (by decide)⟩
theorem InvocationCourse_witness_3 :
    ∃ (s : State) (n : Nat) (f : Flush) (ac : Nat), tfind n s.grid.flushes = some f ∧ f.left = 0 ∧ f.ac = some ac ∧
        s.boot.failing = false :=
  ⟨s46, 3, _, 77, rfl, (by decide), (by decide), (by decide)⟩
theorem InvocationCourse_witness_4 :
    ∃ (s : State) (d : Dispatch) (o : Nat), s.job.cur = some d ∧ d.running = false ∧ d.phase ≠ TrainPhase.runWait ∧
        d.phase ≠ TrainPhase.commitWait ∧ s.boot.failing = false ∧ s.decision d = Decision.refuse o :=
  ⟨s51, _, 1, rfl, (by decide), (by decide), (by decide), (by decide), (by decide)⟩
theorem InvocationCourse_witness_5 :
    ∃ (s : State) (d : Dispatch), s.job.cur = some d ∧ d.running = false ∧ d.phase ≠ TrainPhase.runWait ∧ d.phase ≠
        TrainPhase.commitWait ∧ s.boot.failing = false ∧ s.decision d = Decision.empty :=
  ⟨s50, _, rfl, (by decide), (by decide), (by decide), (by decide), (by decide)⟩
theorem InvocationCourse_witness_6 :
    ∃ (s : State) (d : Dispatch), s.job.cur = some d ∧ d.running = false ∧ d.phase ≠ TrainPhase.runWait ∧ d.phase ≠
        TrainPhase.commitWait ∧ s.boot.failing = false ∧ s.decision d = Decision.wait :=
  ⟨s49, _, rfl, (by decide), (by decide), (by decide), (by decide), (by decide)⟩
theorem InvocationCourse_witness_7 :
    ∃ (s : State) (d : Dispatch) (v : Nat) (b : Nat) (shape : List (Nat × Nat)) (parts : List (Nat × Nat)) (chunked
        : Bool), s.job.cur = some d ∧ d.running = false ∧ d.phase ≠ TrainPhase.runWait ∧ d.phase ≠
        TrainPhase.commitWait ∧ s.boot.failing = false ∧ s.decision d = Decision.go v b shape parts chunked :=
  ⟨s52, _, 0, 0, _, _, _, rfl, (by decide), (by decide), (by decide), (by decide), rfl⟩
theorem InvocationCourse_witness_8 :
    ∃ (s : State) (r : Run) (d : Dispatch) (f : Nat) (c : Nat), s.run? 0 = some r ∧ s.job.cur = some d ∧ r.isOver =
        true ∧ r.closed = false ∧ r.roundFailed = false ∧ (∀ (e : Nat × Tile), e ∈ r.tiles → e.snd.bind = none) ∧
        s.grid.dma = [] ∧ s.grid.flushes = [] ∧ s.grid.releases = [] ∧ s.boot.failing = false ∧ r.fault = some (f,
        c) ∧ c ≠ 0 :=
  ⟨s54, _, _, 50, 4, rfl, rfl, (by decide), (by decide), (by decide), (by decide), (by decide), (by decide), (by
      decide), (by decide), (by decide), (by decide)⟩
theorem InvocationCourse_witness_9 :
    ∃ (s : State) (r : Run) (d : Dispatch), s.run? 0 = some r ∧ s.job.cur = some d ∧ r.isOver = true ∧ r.closed =
        false ∧ r.roundFailed = false ∧ (∀ (e : Nat × Tile), e ∈ r.tiles → e.snd.bind = none) ∧ s.grid.dma = [] ∧
        s.grid.flushes = [] ∧ s.grid.releases = [] ∧ s.boot.failing = false ∧ r.fault = none ∧ d.train = false ∧ (∀
        (x : Bool) (p : List (Nat × Nat)), cutShape d.image d.dims = some (x, p) → chunkCount p ≤ d.chunk + 1) ∧
        d.shardCount ≤ d.shard + 1 :=
  ⟨s53, _, _, rfl, rfl, (by decide), (by decide), (by decide), (by decide), (by decide), (by decide), (by decide),
      (by decide), (by decide), (by decide), (fun _ _ h => by cases h; decide), (by decide)⟩
end Grid

/-! ### DMA commands and training sequences: what meets the hypotheses -/

namespace Dma
def sm : Nat := siteOf 1 2 5
def sc : Nat := siteOf 1 2 3
def base : State :=
  { ((rdy.sf (F.RIGP_STATUS_LINK_STATE 4) lsUp).wrN (R.RIG_ROUTE 9) 0x10).wrN (R.SEQ_CFG 2) 0 with hbm := ((b.hbmWrite 0x1000 [5,6,7,8,9,10,11,12] 0).hbm), grid := { b.grid with sram := [(sramKey sm 3 + 1, 7), (sramKey sm 4, 8)], nextDma := 6 } }
def tl (code : List W64) (k : Nat := 0) : Tile := { slots := [some k], code := code, strands := [(k, {})] }
def run1 (site : Nat) (t : Tile) : Run :=
  { owner := 0x77, seqMask := 3, last := 500, from_ := 400, cycle := 50, tiles := [(site, t)], bucket := [4], dims := [4] }
def wr (r : Run) (s : State := base) : State := { s with grid := { s.grid with runs := [(0, r)] } }
def sram (row : Nat) : Nat := 2 * 2^62 + row
def mem (m off : Nat) : Nat := gAddr m off
def dma (kind len : Nat) (w1 w2 w3 w4 : Nat) (ac : Nat :=
  1) (acq : Nat := 0) (rel : Nat := 0) : State := wr (run1 sm (tl (mkIns ocDma 5 [(kind,4),(acq,1),(rel,1),(len,18),(ac,1),(1,2),(7,8),(2,2),(0,19),(w1,64),(w2,64),(w3,64),(w4,64)])))
def full (s : State) : State :=
  { s with grid := { s.grid with dma := (List.range 256).map fun k => { id := k, site := sm, kind := 1 } } }
def q (l : List DmaCmd) (s : State := base) : State := { s with grid := { s.grid with dma := l } }
def cp (dest : Nat) (n : Nat) : DmaCmd :=
  { id := 3, site := sm, kind := 0, len := 64 * n, dst := dest, dest := dest, ac := some 77, started := true, ready := true, pushed := true, data := (List.range n).map fun k => (List.replicate 64 (BitVec.ofNat 8 (k + 1)), false) }
def dwn (s : State) : State := { s with grid := { s.grid with runs := [(0, run1 sm { tl [] with down := 2 })] } }
def sideS : State :=
  { base with grid := { base.grid with side := [⟨sm, 9, List.replicate 64 3, false, 3⟩, ⟨sc, 8, List.replicate 64 4, false, 3⟩], sramPoison := [(rowKey sm 9, true)] } }
def poll (w3 : Nat) : DmaCmd :=
  { id := 3, site := sm, kind := 4, src := mem 5 0x1000, dst := sram 7, dest := sram 7, aux0 := w3, aux1 := 0xff, started := true, pollAt := 100 }
def red : DmaCmd :=
  { id := 3, site := sm, kind := 3, len := 256, aux0 := bits (gAddr 9 0) 18 38 * 2 ^ 18, started := true, ready := true, pushed := true, data := (List.range 8).map fun k => (List.replicate 64 (BitVec.ofNat 8 (k + 1)), false), retry := [(gAddr 9 0 + 1, 300)] }
def grp : RedGroup :=
  { declared := true, nSlots := 3, length := 100, dest := hbmDie 0, doneAddr := mem 5 0x2000, rc := 4, first0 := some 2000, staged := [⟨4, 0, 1, [], 0⟩, ⟨5, 0, 1, [], 0⟩] }
def grps (g : RedGroup) : State := { base with rig := { base.rig with groups := [(1 * 256 + 5, g)] } }
/-- sequence 2 with one tensor of two channels, directory at 0x4000, census at 0x8000 -/
def dirE : List Byte :=
  leBytes 4 1 ++ leBytes 4 2 ++ List.replicate 8 0 ++ [3] ++ [1] ++ [0] ++ List.replicate 5 0 ++ leBytes 8 (mem 5 0x9000) ++ leBytes 8 (mem 5 0xA000) ++ leBytes 8 0 ++ List.replicate 16 0
def seqS (ten : Nat) (en op : Bool) (lost : Nat := 0) : State :=
  let s := (((base.sf (F.SEQ_CFG_ENABLE 2) (b2n en)).sf (F.SEQ_CFG_TENSORS 2) ten).sf F.QNT_STATUS_OPEN (if op then 4 else 0)).wrN (R.SEQ_DIR 2) (mem 5 0x4000)
  let s := s.wrN (R.SEQ_CENSUS 2) (mem 5 0x8000)
  let s := s.hbmWrite 0x4000 dirE 0
  let s := s.hbmWrite 0x8020 (leBytes 8 1000 ++ leBytes 8 0 ++ leBytes 8 1 ++ leBytes 4 0x3f800000) 0
  { s with grid := { s.grid with lost := lost } }
def st : List State :=
  [b, base] ++ ([(0, 1, sram 3, mem 5 0x1000, 0, 0), (0, 0, mem 5 0x1000, sram 8, 0, 0), (0, 2, sram 8188, mem 5 0x2000, 0, 0), (0, 1, mem 9 0x1000, sram 3, 0, 0), (1, 1, sram 3, sram 40, 0, 0), (2, 0, 0, 0, 1, 0), (2, 0, 0, 0, 6, 0), (3, 0, sram 3, 0, bits (gAddr 9 0) 18 38 * 2 ^ 18, 0), (3, 3, sram 3, 0, bits (gAddr 9 0) 18 38 * 2 ^ 18 + 2^16, 0), (4, 0, mem 5 0x1000, sram 9, 5, 0xff), (4, 0, mem 5 0x1000, sram 9, 6, 0xff),
  (5, 0, sram 3, mem 5 0x1000, 3, 4), (5, 1, sram 3, mem 5 0x1000, 3, 4), (6, 1, sram 3, mem 5 0x1000, 3, 4), (7, 1, sram 3, mem 5 0x1000, 3, 4), (8, 0, sram 3, mem 5 0x1000, 3, 0x08070605), (8, 0, sram 3, mem 5 0x1000, 3, 4), (9, 0, sram 3, mem 9 0x41, 7, 0), (8, 1, sram 3, mem 5 0x1004, 3, 4), (0, 1, 2^62 + 0x100, mem 5 0x1000, 0, 0)].map fun (x : Nat × Nat × Nat × Nat × Nat × Nat) => dma x.1 x.2.1 x.2.2.1 x.2.2.2.1 x.2.2.2.2.1 x.2.2.2.2.2) ++ [
  full (dma 0 1 (sram 3) (mem 5 0x1000) 0 0), full (dma 8 1 (sram 3) (mem 5 0x1000) 0 0), dma 5 1 (sram 3) (mem 5 0x1000) 0 0 1 1 1,
  q [cp (mem 5 0x3000) 3], q [cp (mem 5 (0x9000000000 - 64)) 1], q [cp (sram 20) 2], dwn (q [cp (sram 20) 2]), q [{ cp (sram 20) 2 with offered := 1 }], sideS,
  q [poll 5], q [poll 6], q [red], grps grp, grps { grp with rc := 65535, first1 := some 5, staged := [] },
  seqS 1 false false, seqS 1 true false, seqS 0 true true, seqS 1 true true, seqS 1 true true 4, seqS 1 false true]
theorem DmaIssue_witness_0 :
    ∃ (s : State) (die : Fin 4) (row : Fin 32) (col : Fin 48) (strand : Byte) (i : Issue) (kind : Nat) (c : Instr),
        s.issues i die row col strand ocDma ∧ isM i.site = true ∧ i.ins.dKind = kind ∧ [Instr.dmaCopy die row col
        strand 0 [], Instr.dmaReformat die row col strand, Instr.dmaFence die row col strand, Instr.dmaReduce die
        row col strand, Instr.dmaPoll die row col strand, Instr.dmaAtomicAdd die row col strand,
        Instr.dmaAtomicUmax die row col strand, Instr.dmaAtomicSmax die row col strand, Instr.dmaAtomicCas die row
        col strand, Instr.dmaDoorbell die row col strand][kind]? = some c ∧ s.dmaFree i.site = 0 :=
  ⟨(st.getD 23 .reset), 1, 2, 5, 0, _, 8, _, (issues_intro' _ _ _ _ _ _ _ rfl rfl rfl (by decide) (by decide) (by
      decide)), (by decide), (by decide), rfl, (by decide)⟩
theorem DmaIssue_witness_1 :
    ∃ (s : State) (die : Fin 4) (row : Fin 32) (col : Fin 48) (strand : Byte) (i : Issue) (kind : Nat) (c : Instr),
        s.issues i die row col strand ocDma ∧ isM i.site = true ∧ i.ins.dKind = kind ∧ [Instr.dmaCopy die row col
        strand 0 [], Instr.dmaReformat die row col strand, Instr.dmaFence die row col strand, Instr.dmaReduce die
        row col strand, Instr.dmaPoll die row col strand, Instr.dmaAtomicAdd die row col strand,
        Instr.dmaAtomicUmax die row col strand, Instr.dmaAtomicSmax die row col strand, Instr.dmaAtomicCas die row
        col strand, Instr.dmaDoorbell die row col strand][kind]? = some c ∧ s.grid.dma = [] ∧ s.rig.ended = [] ∧
        (s.dmaArg i.site (i.ins.dWord 1)).snd = false ∧ (s.dmaArg i.site (i.ins.dWord 2)).snd = false :=
  ⟨(st.getD 24 .reset), 1, 2, 5, 0, _, 5, _, (issues_intro' _ _ _ _ _ _ _ rfl rfl rfl (by decide) (by decide) (by
      decide)), (by decide), (by decide), rfl, (by decide), (by decide), (by decide), (by decide)⟩
theorem DmaIssue_witness_2 :
    ∃ (s : State) (die : Fin 4) (row : Fin 32) (col : Fin 48) (strand : Byte) (i : Issue) (kind : Nat) (c : Instr)
        (site : Nat) (rw : Nat) (a : Nat) (o : Nat) (o' : Nat), s.issues i die row col strand ocDma ∧ isM i.site =
        true ∧ i.ins.dKind = kind ∧ [Instr.dmaCopy die row col strand 0 [], Instr.dmaReformat die row col strand,
        Instr.dmaFence die row col strand, Instr.dmaReduce die row col strand, Instr.dmaPoll die row col strand,
        Instr.dmaAtomicAdd die row col strand, Instr.dmaAtomicUmax die row col strand, Instr.dmaAtomicSmax die row
        col strand, Instr.dmaAtomicCas die row col strand, Instr.dmaDoorbell die row col strand][kind]? = some c ∧
        s.grid.dma = [] ∧ s.rig.ended = [] ∧ (s.dmaArg i.site (i.ins.dWord 1)).snd = false ∧ (s.dmaArg i.site
        (i.ins.dWord 2)).snd = false ∧ kind = 0 ∧ dmaEnd i.site (s.dmaArg i.site (i.ins.dWord 1)).fst = DmaEnd.sram
        site rw ∧ dmaEnd i.site (s.dmaArg i.site (i.ins.dWord 2)).fst = DmaEnd.mem a ∧ s.isOwn (gModule a) = true ∧
        placeOf (gOff a) = Place.hbm o ∧ placeOf (gOff (a + 64 * (i.ins.f 6 18 + 1) - 1)) = Place.hbm o' :=
  ⟨(st.getD 4 .reset), 1, 2, 5, 0, _, 0, _, 2181, 8188, 87960930230272, 8192, 8383, (issues_intro' _ _ _ _ _ _ _
      rfl rfl rfl (by decide) (by decide) (by decide)), (by decide), (by decide), rfl, (by decide), (by decide),
      (by decide), (by decide), (by decide), (by decide), (by decide), (by decide), (by decide), (by decide)⟩
theorem DmaIssue_witness_3 :
    ∃ (s : State) (die : Fin 4) (row : Fin 32) (col : Fin 48) (strand : Byte) (i : Issue) (kind : Nat) (c : Instr),
        s.issues i die row col strand ocDma ∧ isM i.site = true ∧ i.ins.dKind = kind ∧ [Instr.dmaCopy die row col
        strand 0 [], Instr.dmaReformat die row col strand, Instr.dmaFence die row col strand, Instr.dmaReduce die
        row col strand, Instr.dmaPoll die row col strand, Instr.dmaAtomicAdd die row col strand,
        Instr.dmaAtomicUmax die row col strand, Instr.dmaAtomicSmax die row col strand, Instr.dmaAtomicCas die row
        col strand, Instr.dmaDoorbell die row col strand][kind]? = some c ∧ s.grid.dma = [] ∧ s.rig.ended = [] ∧
        (s.dmaArg i.site (i.ins.dWord 1)).snd = false ∧ (s.dmaArg i.site (i.ins.dWord 2)).snd = false ∧ kind = 2 ∧
        i.ins.dWord 3 % 8 < 5 :=
  ⟨(st.getD 7 .reset), 1, 2, 5, 0, _, 2, _, (issues_intro' _ _ _ _ _ _ _ rfl rfl rfl (by decide) (by decide) (by
      decide)), (by decide), (by decide), rfl, (by decide), (by decide), (by decide), (by decide), (by decide), (by
      decide)⟩
theorem DmaIssue_witness_4 :
    ∃ (s : State) (die : Fin 4) (row : Fin 32) (col : Fin 48) (strand : Byte) (i : Issue) (kind : Nat) (c : Instr)
        (a : Nat) (o : Nat) (site : Nat) (rw : Nat), s.issues i die row col strand ocDma ∧ isM i.site = true ∧
        i.ins.dKind = kind ∧ [Instr.dmaCopy die row col strand 0 [], Instr.dmaReformat die row col strand,
        Instr.dmaFence die row col strand, Instr.dmaReduce die row col strand, Instr.dmaPoll die row col strand,
        Instr.dmaAtomicAdd die row col strand, Instr.dmaAtomicUmax die row col strand, Instr.dmaAtomicSmax die row
        col strand, Instr.dmaAtomicCas die row col strand, Instr.dmaDoorbell die row col strand][kind]? = some c ∧
        s.grid.dma = [] ∧ s.rig.ended = [] ∧ (s.dmaArg i.site (i.ins.dWord 1)).snd = false ∧ (s.dmaArg i.site
        (i.ins.dWord 2)).snd = false ∧ 5 ≤ kind ∧ kind ≤ 8 ∧ dmaEnd i.site (s.dmaArg i.site (i.ins.dWord 2)).fst =
        DmaEnd.mem a ∧ s.isOwn (gModule a) = true ∧ placeOf (gOff a) = Place.hbm o ∧ dmaEnd i.site (s.dmaArg i.site
        (i.ins.dWord 1)).fst = DmaEnd.sram site rw ∧ (a % if 64 * (i.ins.f 6 18 + 1) ≤ 64 then 4 else 8) = 0 ∧
        s.hbmPoisoned o (if 64 * (i.ins.f 6 18 + 1) ≤ 64 then 4 else 8) = false :=
  ⟨(st.getD 24 .reset), 1, 2, 5, 0, _, 5, _, 87960930226176, 4096, 2181, 3, (issues_intro' _ _ _ _ _ _ _ rfl rfl
      rfl (by decide) (by decide) (by decide)), (by decide), (by decide), rfl, (by decide), (by decide), (by
      decide), (by decide), (by decide), (by decide), (by decide), (by decide), (by decide), (by decide), (by
      decide), (by decide)⟩
theorem DmaIssue_witness_5 :
    ∃ (s : State) (die : Fin 4) (row : Fin 32) (col : Fin 48) (strand : Byte) (i : Issue) (kind : Nat) (c : Instr)
        (a : Nat) (o : Nat) (site : Nat) (rw : Nat), s.issues i die row col strand ocDma ∧ isM i.site = true ∧
        i.ins.dKind = kind ∧ [Instr.dmaCopy die row col strand 0 [], Instr.dmaReformat die row col strand,
        Instr.dmaFence die row col strand, Instr.dmaReduce die row col strand, Instr.dmaPoll die row col strand,
        Instr.dmaAtomicAdd die row col strand, Instr.dmaAtomicUmax die row col strand, Instr.dmaAtomicSmax die row
        col strand, Instr.dmaAtomicCas die row col strand, Instr.dmaDoorbell die row col strand][kind]? = some c ∧
        s.grid.dma = [] ∧ s.rig.ended = [] ∧ (s.dmaArg i.site (i.ins.dWord 1)).snd = false ∧ (s.dmaArg i.site
        (i.ins.dWord 2)).snd = false ∧ kind = 4 ∧ dmaEnd i.site (s.dmaArg i.site (i.ins.dWord 1)).fst = DmaEnd.mem
        a ∧ s.isOwn (gModule a) = true ∧ placeOf (gOff a) = Place.hbm o ∧ dmaEnd i.site (s.dmaArg i.site
        (i.ins.dWord 2)).fst = DmaEnd.sram site rw ∧ leNat (s.hbmRead o 8) &&& i.ins.dWord 4 = i.ins.dWord 3 &&&
        i.ins.dWord 4 :=
  ⟨(st.getD 11 .reset), 1, 2, 5, 0, _, 4, _, 87960930226176, 4096, 2181, 9, (issues_intro' _ _ _ _ _ _ _ rfl rfl
      rfl (by decide) (by decide) (by decide)), (by decide), (by decide), rfl, (by decide), (by decide), (by
      decide), (by decide), (by decide), (by decide), (by decide), (by decide), (by decide), (by decide)⟩
theorem DmaIssue_witness_6 :
    ∃ (s : State) (die : Fin 4) (row : Fin 32) (col : Fin 48) (strand : Byte) (i : Issue) (kind : Nat) (c : Instr)
        (site : Nat) (rw : Nat) (a : Nat), s.issues i die row col strand ocDma ∧ isM i.site = true ∧ i.ins.dKind =
        kind ∧ [Instr.dmaCopy die row col strand 0 [], Instr.dmaReformat die row col strand, Instr.dmaFence die row
        col strand, Instr.dmaReduce die row col strand, Instr.dmaPoll die row col strand, Instr.dmaAtomicAdd die
        row col strand, Instr.dmaAtomicUmax die row col strand, Instr.dmaAtomicSmax die row col strand,
        Instr.dmaAtomicCas die row col strand, Instr.dmaDoorbell die row col strand][kind]? = some c ∧ s.grid.dma =
        [] ∧ s.rig.ended = [] ∧ (s.dmaArg i.site (i.ins.dWord 1)).snd = false ∧ (s.dmaArg i.site (i.ins.dWord
        2)).snd = false ∧ kind = 9 ∧ dmaEnd i.site (s.dmaArg i.site (i.ins.dWord 1)).fst = DmaEnd.sram site rw ∧ rw
        < 8190 ∧ dmaEnd i.site (s.dmaArg i.site (i.ins.dWord 2)).fst = DmaEnd.mem a ∧ s.isOwn (gModule a) = false :=
  ⟨(st.getD 19 .reset), 1, 2, 5, 0, _, 9, _, 2181, 3, 158329674399809, (issues_intro' _ _ _ _ _ _ _ rfl rfl rfl (by
      decide) (by decide) (by decide)), (by decide), (by decide), rfl, (by decide), (by decide), (by decide), (by
      decide), (by decide), (by decide), (by decide), (by decide), (by decide)⟩
theorem DmaIssue_witness_7 :
    ∃ (s : State) (die : Fin 4) (row : Fin 32) (col : Fin 48) (strand : Byte) (i : Issue) (kind : Nat) (c : Instr)
        (site : Nat) (rw : Nat), s.issues i die row col strand ocDma ∧ isM i.site = true ∧ i.ins.dKind = kind ∧
        [Instr.dmaCopy die row col strand 0 [], Instr.dmaReformat die row col strand, Instr.dmaFence die row col
        strand, Instr.dmaReduce die row col strand, Instr.dmaPoll die row col strand, Instr.dmaAtomicAdd die row
        col strand, Instr.dmaAtomicUmax die row col strand, Instr.dmaAtomicSmax die row col strand,
        Instr.dmaAtomicCas die row col strand, Instr.dmaDoorbell die row col strand][kind]? = some c ∧ s.grid.dma =
        [] ∧ s.rig.ended = [] ∧ (s.dmaArg i.site (i.ins.dWord 1)).snd = false ∧ (s.dmaArg i.site (i.ins.dWord
        2)).snd = false ∧ kind = 3 ∧ dmaEnd i.site (s.dmaArg i.site (i.ins.dWord 1)).fst = DmaEnd.sram site rw ∧ rw
        < 8190 ∧ 64 * (i.ins.f 6 18 + 1) = 64 ∧ s.isOwn (bits (bits (i.ins.dWord 3) 18 38 * 2 ^ 18) 44 12) = false :=
  ⟨(st.getD 9 .reset), 1, 2, 5, 0, _, 3, _, 2181, 3, (issues_intro' _ _ _ _ _ _ _ rfl rfl rfl (by decide) (by
      decide) (by decide)), (by decide), (by decide), rfl, (by decide), (by decide), (by decide), (by decide), (by
      decide), (by decide), (by decide), (by decide), (by decide)⟩
theorem DmaCommandEnds_witness_0 :
    ∃ (s : State) (c : DmaCmd) (id : Nat) (a : Nat) (o : Nat) (k : Nat), s.grid.dma = [c] ∧ c.id = id ∧ c.complete
        = true ∧ s.rig.ended = [] ∧ c.kind ≠ 4 ∧ c.flush = none ∧ c.strip = [] ∧ c.ac = some k ∧ dmaEnd c.site
        c.dest = DmaEnd.mem a ∧ s.isOwn (gModule a) = true ∧ placeOf (gOff a) = Place.hbm o ∧ o + 64 *
        c.data.length ≤ 618475290624 ∧ (∀ (u : List Byte × Bool), u ∈ c.data → u.fst.length = 64 ∧ u.snd = false) ∧
        s.boot.failing = false :=
  ⟨(st.getD 26 .reset), _, 3, 88579405512640, 618475290560, 77, rfl, (by decide), (by decide), (by decide), (by
      decide), (by decide), (by decide), (by decide), (by decide), (by decide), (by decide), (by decide), (by
      decide), (by decide)⟩
theorem DmaCommandEnds_witness_1 :
    ∃ (s : State) (die : Fin 4) (row : Fin 32) (col : Fin 48) (c : DmaCmd) (rw : Nat) (u : List Byte × Bool),
        s.boot.failing = false ∧ (∀ (u : Nat × Run × Tile), u ∈ s.usersOf (siteN die row col) → u.snd.snd.erase =
        []) ∧ s.feeding (siteN die row col) = some c ∧ dmaEnd c.site c.dest = DmaEnd.sram (siteN die row col) rw ∧
        c.data[c.offered]? = some u ∧ s.downBanks (siteN die row col) = 0 :=
  ⟨(st.getD 29 .reset), 1, 2, 5, _, 20, _, (by decide), (by decide), rfl, (by decide), rfl, (by decide)⟩
theorem DmaCommandEnds_witness_2 :
    ∃ (s : State) (die : Fin 4) (row : Fin 32) (col : Fin 48) (c : DmaCmd) (rw : Nat) (u : List Byte × Bool),
        s.boot.failing = false ∧ (∀ (u : Nat × Run × Tile), u ∈ s.usersOf (siteN die row col) → u.snd.snd.erase =
        []) ∧ s.feeding (siteN die row col) = some c ∧ dmaEnd c.site c.dest = DmaEnd.sram (siteN die row col) rw ∧
        c.data[c.offered]? = some u ∧ s.downBanks (siteN die row col) ≠ 0 :=
  ⟨(st.getD 28 .reset), 1, 2, 5, _, 20, _, (by decide), (by decide), rfl, (by decide), rfl, (by decide)⟩
theorem DmaCommandEnds_witness_3 :
    ∃ (s : State) (die : Fin 4) (row : Fin 32) (col : Fin 48) (w : SideWrite), s.boot.failing = false ∧ (∀ (u : Nat
        × Run × Tile), u ∈ s.usersOf (siteN die row col) → u.snd.snd.erase = []) ∧ List.find? (fun w => decide
        (w.site = siteN die row col)) s.grid.side = some w ∧ w.data.length = 64 ∧ w.poison = false ∧ w.row + 64 /
        rowLen (siteN die row col) ≤ 8192 :=
  ⟨(st.getD 30 .reset), 1, 2, 5, _, (by decide), (by decide), rfl, (by decide), (by decide), (by decide)⟩
theorem DmaCommandEnds_witness_4 :
    ∃ (s : State) (die : Fin 4) (row : Fin 32) (col : Fin 48), s.boot.failing = false ∧ (∀ (u : Nat × Run × Tile),
        u ∈ s.usersOf (siteN die row col) → u.snd.snd.erase = []) ∧ isM (siteN die row col) = true :=
  ⟨(st.getD 41 .reset), 1, 2, 5, (by decide), (by decide), (by decide)⟩
theorem DmaCommandEnds_witness_5 :
    ∃ (s : State) (c : DmaCmd) (id : Nat) (a : Nat) (o : Nat), s.grid.dma = [c] ∧ c.id = id ∧ c.kind = 4 ∧
        c.started = true ∧ c.ready = false ∧ c.pushed = false ∧ c.out = 0 ∧ dmaEnd c.site c.src = DmaEnd.mem a ∧
        s.isOwn (gModule a) = true ∧ placeOf (gOff a) = Place.hbm o ∧ (∀ (b : Nat), dmaEnd c.site c.dest ≠
        DmaEnd.mem b) ∧ s.rig.ended = [] ∧ s.boot.failing = false ∧ c.pollAt + 4 * max 1 (s.gf
        F.RIG_GAPS_POLL_INTERVAL) ≤ s.now :=
  ⟨(st.getD 32 .reset), _, 3, 87960930226176, 4096, rfl, (by decide), (by decide), (by decide), (by decide), (by
      decide), (by decide), (by decide), (by decide), (by decide), nofun, (by decide), (by decide), (by decide)⟩
theorem DmaCommandEnds_witness_6 :
    ∃ (s : State) (c : DmaCmd) (id : Nat) (ad : Nat) (at_ : Nat), s.grid.dma = [c] ∧ c.id = id ∧ c.retry = [(ad,
        at_)] ∧ c.started = true ∧ c.kind = 3 ∧ c.pushed = true ∧ s.boot.failing = false ∧ s.rig.ended = [] ∧
        s.isOwn (bits ad 44 12) = false ∧ at_ + 4 * max 1 (s.gf F.RIG_GAPS_RED_RETRY_GAP) ≤ s.now :=
  ⟨(st.getD 33 .reset), _, 3, 158329674399745, 300, rfl, (by decide), (by decide), (by decide), (by decide), (by
      decide), (by decide), (by decide), (by decide), (by decide)⟩
theorem DmaCommandEnds_witness_7 :
    ∃ (s : State) (die : Fin 4) (group : Byte) (d : Nat) (o : Nat) (j : Nat), (s.redGroup (↑die) (BitVec.toNat
        group)).first0 = some d ∧ (s.redGroup (↑die) (BitVec.toNat group)).declared = true ∧ d ≠ 0 ∧ s.isOwn
        (gModule (s.redGroup (↑die) (BitVec.toNat group)).doneAddr) = true ∧ placeOf (gOff (s.redGroup (↑die)
        (BitVec.toNat group)).doneAddr) = Place.hbm o ∧ j < (s.redGroup (↑die) (BitVec.toNat group)).chunks ∧
        (s.redGroup (↑die) (BitVec.toNat group)).nextOf 1 j < (s.redGroup (↑die) (BitVec.toNat group)).nSlots ∧
        s.grid.idle = true :=
  ⟨(st.getD 35 .reset), 1, 5, 2000, 8192, 1, (by decide), (by decide), (by decide), (by decide), (by decide), (by
      decide), (by decide), (by decide)⟩
theorem TrainingSequences_witness_0 :
    ∃ (s : State) (q : Fin 8), s.boot.failing = false ∧ s.grid.seqOps = [] ∧ s.rig.ended = [] ∧ s.flag
        (F.SEQ_CFG_ENABLE ↑q) = false :=
  ⟨(st.getD 41 .reset), 3, (by decide), (by decide), (by decide), (by decide)⟩
theorem TrainingSequences_witness_1 :
    ∃ (s : State) (q : Fin 8), s.boot.failing = false ∧ s.grid.seqOps = [] ∧ s.rig.ended = [] ∧ s.flag
        (F.SEQ_CFG_ENABLE ↑q) = true :=
  ⟨(st.getD 40 .reset), 2, (by decide), (by decide), (by decide), (by decide)⟩
theorem TrainingSequences_witness_3 :
    ∃ (s : State) (q : Fin 8), s.boot.failing = false ∧ s.grid.seqOps = [] ∧ s.rig.ended = [] ∧ s.flag
        (F.SEQ_CFG_ENABLE ↑q) = true ∧ s.isOpen ↑q = true ∧ s.seqInUse ↑q = false ∧ s.grid.disabling.testBit ↑q =
        false ∧ s.grid.lost.testBit ↑q = true :=
  ⟨(st.getD 40 .reset), 2, (by decide), (by decide), (by decide), (by decide), (by decide), (by decide), (by
      decide), (by decide)⟩
theorem TrainingSequences_witness_4 :
    ∃ (s : State) (q : Fin 8) (ext : List (Nat × List Byte)) (ts : List (Tensor × Nat × Nat × Nat)), s.boot.failing
        = false ∧ s.grid.seqOps = [] ∧ s.rig.ended = [] ∧ s.flag (F.SEQ_CFG_ENABLE ↑q) = true ∧ s.isOpen ↑q = true
        ∧ s.seqInUse ↑q = false ∧ s.grid.disabling.testBit ↑q = false ∧ s.grid.lost.testBit ↑q = false ∧
        s.grid.openErr.testBit ↑q = false ∧ s.tensors ext ↑q = some ts ∧ (∀ (x : Tensor × Nat × Nat × Nat), x ∈ ts
        → farOff x.fst x.snd = (false, false)) :=
  ⟨(st.getD 38 .reset), 2, [], _, (by decide), (by decide), (by decide), (by decide), (by decide), (by decide), (by
      decide), (by decide), (by decide), rfl, (by decide)⟩
theorem TrainingSequences_witness_5 :
    ∃ (s : State) (q : Fin 8), s.boot.failing = false ∧ s.grid.seqOps = [] ∧ s.rig.ended = [] ∧ s.flag
        (F.SEQ_CFG_ENABLE ↑q) = true ∧ s.isOpen ↑q = false ∧ s.grid.disabling.testBit ↑q = false :=
  ⟨(st.getD 37 .reset), 2, (by decide), (by decide), (by decide), (by decide), (by decide), (by decide)⟩
theorem TrainingSequences_witness_6 :
    ∃ (s : State) (q : Fin 8) (isOpen : Bool), s.boot.failing = false ∧ s.grid.seqOps = [] ∧ s.rig.ended = [] ∧
        s.isOpen ↑q = isOpen ∧ (isOpen = true ∨ s.seqInUse ↑q = false) ∧ s.grid.disabling.testBit ↑q = false :=
  ⟨(st.getD 41 .reset), 3, _, (by decide), (by decide), (by decide), rfl, (by decide), (by decide)⟩
end Dma

/-! ### The Rigging: what meets the hypotheses -/

namespace Rigging
def gx : Nat := 0xaa87ca22be8b05378eb1c71ef320ad746e1d3b628ba79b9859f741e082542a385502f25dbf55296c3a545e3872760ab7
def gy : Nat := 0x3617de4a96262c6f5d9e98bf9292dc29f8f41dbd289a147ce9da3113b5f0b8c00a60b1ce1d7e819d7a431d7c90ea0e5f
def helloB (nonce role num enc : Nat) : List Byte :=
  beBytes 1 1 ++ beBytes 1 role ++ beBytes 2 num ++ beBytes 1 enc ++ beBytes 3 0 ++ beBytes 48 nonce ++ beBytes 48 gx ++ beBytes 48 gy ++ beBytes 2 3 ++ beBytes 2 0 ++ [1, 2, 3]
def lk (st : Nat) (s : State := rdy) : State := s.sf (F.RIGP_STATUS_LINK_STATE 4) st
def rng (s : State) : State := s.sf F.SEC_STATUS_RNG_OK 1
def port (r : RigPort) (s : State) : State := { s with rig := { s.rig with ports := [(4, r)] } }
def hb : List Byte := helloB 0x500 1 5 0
def att (r : RigPort) : State := rng (port r (lk lsAttesting))
def pr : RigPort := { hello := hb, peer := helloB 0x900 0 9 0, th := [1,2,3], low := true, since := 5 }
def base : State :=
  { ((((rdy.sf (F.RIGP_STATUS_LINK_STATE 4) lsUp).wrN (R.RIG_ROUTE 9) 0x10).wrN (R.MODULE_NUMBER) 5).sf F.RIG_REMOTE_CTRL_MASK_BLOCKS 0) with hbm := ((b.hbmWrite 0x1000 [5,6,7,8,9,10,11,12] 0).hbm) }
def pk (op len : Nat) (addr aux : Nat) (pay : List Byte) (fl : Nat :=
  0) (dst : Nat := 5) : Pkt := Pkt.sealed { opcode := op, flags := fl, length := len, source := 9, dst := BitVec.ofNat 12 dst, address := BitVec.ofNat 64 addr, txn := 7, aux := aux, payload := pay }
def grp : RedGroup :=
  { declared := true, nSlots := 3, length := 100, dest := 0x20000, doneAddr := gAddr 5 0x2000, rc := 4 }
def ring (s : State) : State :=
  ((((s.sf (F.RING_CFG_CLASS 65) 5).sf (F.RING_CFG_ENABLE 65) 1).wrN (R.RING_SW_IDX 65) 10).wrN (R.RING_DEV_IDX 65) 20).wrN (R.RING_BASE 65) 0x10000
def oo : OutOp := ⟨pk 1 128 (gAddr 9 0x5000) 0 [] 0 9, .missEngine 3, 4, 900, 5000, none⟩
def ops (s : State) : State := { s with rig := { s.rig with ops := [(7, oo)] } }
def rp (k : Nat) : List Pkt := (List.range k).map fun i => { (pk 1 64 (gAddr 9 0x40) 0 []) with linkSeq := i + 3 }
def lrp (r : RigPort) : State := port r base
def s2 : State := lk lsTraining
def s4 : State := rng (port { peer := [1,2] } (lk lsTraining))
def s5 : State := att { hello := hb, since := 5 }
def s10 : State :=
  (((att { pr with peer := helloB 0x900 0 9 1}).sf (F.RIGP_CFG_ROLE 4) 1).sf (F.RIGP_CFG_PEER 4) 9).sf (F.RIGP_CFG_ENC 4) 1
def s14 : State := lk lsAttestFailed
def s17 : State := port { q2 := rp 2 } (ops base)
def s18 : State := { base with rig := { base.rig with groups := [(1 * 256 + 5, grp)] } }
def s19 : State := ring base
def s20 : State := base.sf F.MODULE_STATE_STATE 6
def s24 : State := (lrp { replay := rp 3, resends := 0, advAt := 300 }).sf F.RIG_CTRL_RETRY_LIMIT 5
def s25 : State := { (lrp { replay := rp 3, resends := 2, advAt := 300 }) with now := 20000 }
def s26 : State := lrp { cred0 := 1000, cred1 := 5, cred2 := 1023, unacked := 3, ackFrom := 950, rxSeq := 0 }
def s27 : State := lrp { nakSent := true, rxSeq := 9 }
def s28 : State := lrp { nakSent := false, rxSeq := 9 }
def s29 : State :=
  (lrp { tx := { key := [1], count := 2^40 }, rx := { key := [1], count := 2^40 } }).sf (F.RIGP_CFG_ENC 4) 1
theorem RigPortTraining_witness_0 :
    ∃ (s : State) (n : Fin 32), s.linkState ↑n = lsTraining ∧ s.pwr.serdesLost = false ∧ s.rngOk = true :=
  ⟨s4, 4, (by decide), (by decide), (by decide)⟩
theorem RigPortTraining_witness_1 :
    ∃ (s : State) (n : Fin 32), s.linkState ↑n = lsTraining ∧ s.pwr.serdesLost = false ∧ s.rngOk = false :=
  ⟨s2, 4, (by decide), (by decide), (by decide)⟩
theorem RigPortTraining_witness_2 :
    ∃ (s : State) (n : Fin 32) (frame : List Byte), s.linkState ↑n = lsAttesting ∧ s.now ≤ s.attestLimit ↑n ∧
        s.rngOk = true ∧ (s.rigPort ↑n).peer = [] ∧ attBody frame = none :=
  ⟨s5, 4, [0, 5, 6, 7, 8, 9, 0x0A, 0x0B], (by decide), (by decide), (by decide), (by decide), (by decide)⟩
theorem RigPortTraining_witness_3 :
    ∃ (s : State) (n : Fin 32) (frame : List Byte) (b : List Byte), s.linkState ↑n = lsAttesting ∧ s.now ≤
        s.attestLimit ↑n ∧ s.rngOk = true ∧ (s.rigPort ↑n).peer = [] ∧ attBody frame = some b ∧ helloOk b = false :=
  ⟨s5, 4, (attFrame [1, 2]), _, (by decide), (by decide), (by decide), (by decide), rfl, (by decide)⟩
theorem RigPortTraining_witness_4 :
    ∃ (s : State) (n : Fin 32) (frame : List Byte) (b : List Byte), s.linkState ↑n = lsAttesting ∧ s.now ≤
        s.attestLimit ↑n ∧ s.rngOk = true ∧ (s.rigPort ↑n).peer = [] ∧ attBody frame = some b ∧ helloOk b = true ∧
        helloNonce b = helloNonce (s.rigPort ↑n).hello :=
  ⟨s5, 4, (attFrame hb), _, (by decide), (by decide), (by decide), (by decide), rfl, (by decide), (by decide)⟩
theorem RigPortTraining_witness_5 :
    ∃ (s : State) (n : Fin 32) (frame : List Byte) (b : List Byte), s.linkState ↑n = lsAttesting ∧ s.now ≤
        s.attestLimit ↑n ∧ s.rngOk = true ∧ (s.rigPort ↑n).peer = [] ∧ attBody frame = some b ∧ helloOk b = true ∧
        helloNonce b ≠ helloNonce (s.rigPort ↑n).hello :=
  ⟨s5, 4, (attFrame (helloB 0x100 0 9 0)), _, (by decide), (by decide), (by decide), (by decide), rfl, (by decide),
      (by decide)⟩
theorem RigPortTraining_witness_6 :
    ∃ (s : State) (n : Fin 32), s.linkState ↑n = lsAttesting ∧ s.now ≤ s.attestLimit ↑n ∧ s.rngOk = true ∧
        (s.rigPort ↑n).peer ≠ [] :=
  ⟨s10, 4, (by decide), (by decide), (by decide), (by decide)⟩
theorem RigPortTraining_witness_7 :
    ∃ (s : State) (n : Fin 32), s.linkState ↑n = lsAttesting ∧ s.grid.idle = true :=
  ⟨s10, 4, (by decide), (by decide)⟩
theorem RigPortTraining_witness_8 :
    ∃ (s : State) (n : Fin 32), lsDown ≤ s.linkState ↑n ∧ s.linkState ↑n ≤ lsAttestFailed ∧ s.startFailed = false ∧
        s.grid.idle = true :=
  ⟨s14, 4, (by decide), (by decide), (by decide), (by decide)⟩
theorem RigPortTraining_witness_9 :
    ∃ (s : State) (n : Fin 32), (s.linkState ↑n = lsAttesting ∨ s.linkState ↑n = lsTraining) ∧ s.boot.failing = false :=
  ⟨s10, 4, (by decide), (by decide)⟩
theorem RigPortTraining_witness_10 :
    ∃ (s : State) (n : Fin 32) (txn : Nat) (o : OutOp) (slot : Nat), s.linkState ↑n = lsUp ∧ s.boot.failing = false
        ∧ s.rig.ops = [(txn, o)] ∧ o.port = ↑n ∧ o.issuer = Issuer.missEngine slot ∧ (s.rigPort ↑n).q0 = [] ∧
        (s.rigPort ↑n).q1 = [] ∧ s.rig.ended = [] ∧ s.rig.waiting = [] ∧ s.recov.logs = [] ∧ s.grid.dma = [] :=
  ⟨s17, 4, 7, _, 3, (by decide), (by decide), rfl, (by decide), (by decide), (by decide), (by decide), (by decide),
      (by decide), (by decide), (by decide)⟩
theorem RigRequestsServed_witness_0 :
    ∃ (s : State) (n : Fin 32) (p : Pkt) (o : Nat), s.admits (↑n) p ∧ placeOf (gOff p.addr) = Place.hbm o ∧
        p.opcode = opRead ∧ p.crosses = false :=
  ⟨s26, 4, (pk 1 64 (gAddr 5 0x10c0) 0 []), 4288, (admits_intro' _ _ _ (arrives_intro' _ _ _ (by decide) (by
      decide) (by decide) (by decide) (by decide)) (by decide) (by decide) (by decide)), (by decide), (by decide),
      (by decide)⟩
theorem RigRequestsServed_witness_1 :
    ∃ (s : State) (n : Fin 32) (p : Pkt) (o : Nat), s.admits (↑n) p ∧ placeOf (gOff p.addr) = Place.hbm o ∧
        p.opcode = opWrite ∧ p.crosses = false ∧ p.length ≤ p.payload.length ∧ p.poison = 0 :=
  ⟨s26, 4, (pk 2 4 (gAddr 5 0x1002) 0 [1,2,3,4]), 4098, (admits_intro' _ _ _ (arrives_intro' _ _ _ (by decide) (by
      decide) (by decide) (by decide) (by decide)) (by decide) (by decide) (by decide)), (by decide), (by decide),
      (by decide), (by decide), (by decide)⟩
theorem RigRequestsServed_witness_2 :
    ∃ (s : State) (n : Fin 32) (p : Pkt) (o : Nat) (c : Instr), s.admits (↑n) p ∧ placeOf (gOff p.addr) = Place.hbm
        o ∧ [Instr.atomicAdd n p, Instr.atomicUmax n p, Instr.atomicSmax n p, Instr.atomicCas n p][p.opcode -
        opAdd]? = some c ∧ opAdd ≤ p.opcode ∧ (p.length = 4 ∨ p.length = 8) ∧ p.addr % p.length = 0 ∧ s.hbmPoisoned
        o p.length = false :=
  ⟨s26, 4, (pk 3 4 (gAddr 5 0x1000) 0 [1,0,0,0]), 4096, _, (admits_intro' _ _ _ (arrives_intro' _ _ _ (by decide)
      (by decide) (by decide) (by decide) (by decide)) (by decide) (by decide) (by decide)), (by decide), rfl, (by
      decide), (by decide), (by decide), (by decide)⟩
theorem RigRequestsServed_witness_3 :
    ∃ (s : State) (n : Fin 32) (p : Pkt), s.admits (↑n) p ∧ p.opcode = opReduce ∧ (s.redGroup (bits (BitVec.toNat
        p.address) 42 2) (bits (BitVec.toNat p.address) 34 8)).declared = true ∧ bits (BitVec.toNat p.address) 0 18
        < (s.redGroup (bits (BitVec.toNat p.address) 42 2) (bits (BitVec.toNat p.address) 34 8)).chunks ∧ 1 <
        (s.redGroup (bits (BitVec.toNat p.address) 42 2) (bits (BitVec.toNat p.address) 34 8)).nSlots ∧ bits
        (BitVec.toNat p.address) 18 16 = (s.redGroup (bits (BitVec.toNat p.address) 42 2) (bits (BitVec.toNat
        p.address) 34 8)).rc ∧ bits p.aux 0 12 = 0 ∧ p.aux.testBit 12 = false ∧ p.poison = 0 ∧ (s.redGroup (bits
        (BitVec.toNat p.address) 42 2) (bits (BitVec.toNat p.address) 34 8)).nextOf 0 (bits (BitVec.toNat
        p.address) 0 18) = 0 ∧ (s.redGroup (bits (BitVec.toNat p.address) 42 2) (bits (BitVec.toNat p.address) 34
        8)).staged = [] ∧ 4 * (s.redGroup (bits (BitVec.toNat p.address) 42 2) (bits (BitVec.toNat p.address) 34
        8)).elems (bits (BitVec.toNat p.address) 0 18) ≤ p.payload.length :=
  ⟨s18, 4, { opcode := 7, flags := 0, length := 144, source := 0x009#12, srcDie := 0, dst := 0x005#12, address := 0x0000541400100001#64, txn := 7, aux := 0, e2e := 2096357788, linkSeq := 0, vc := 0, payload := [0x00#8, 0x01#8, 0x02#8, 0x03#8, 0x04#8, 0x05#8, 0x06#8, 0x07#8, 0x08#8, 0x09#8, 0x0a#8, 0x0b#8, 0x0c#8, 0x0d#8, 0x0e#8, 0x0f#8, 0x10#8, 0x11#8, 0x12#8, 0x13#8, 0x14#8, 0x15#8, 0x16#8, 0x17#8, 0x18#8, 0x19#8, 0x1a#8, 0x1b#8, 0x1c#8, 0x1d#8, 0x1e#8, 0x1f#8, 0x20#8, 0x21#8, 0x22#8, 0x23#8, 0x24#8, 0x25#8, 0x26#8, 0x27#8, 0x28#8, 0x29#8, 0x2a#8, 0x2b#8, 0x2c#8, 0x2d#8, 0x2e#8, 0x2f#8, 0x30#8, 0x31#8, 0x32#8, 0x33#8, 0x34#8, 0x35#8, 0x36#8, 0x37#8, 0x38#8, 0x39#8, 0x3a#8, 0x3b#8, 0x3c#8, 0x3d#8, 0x3e#8, 0x3f#8, 0x40#8, 0x41#8, 0x42#8, 0x43#8, 0x44#8, 0x45#8, 0x46#8, 0x47#8, 0x48#8, 0x49#8, 0x4a#8, 0x4b#8, 0x4c#8, 0x4d#8, 0x4e#8, 0x4f#8, 0x50#8, 0x51#8, 0x52#8, 0x53#8, 0x54#8, 0x55#8, 0x56#8, 0x57#8, 0x58#8, 0x59#8, 0x5a#8, 0x5b#8, 0x5c#8, 0x5d#8, 0x5e#8, 0x5f#8, 0x60#8, 0x61#8, 0x62#8, 0x63#8, 0x64#8, 0x65#8, 0x66#8, 0x67#8, 0x68#8, 0x69#8, 0x6a#8, 0x6b#8, 0x6c#8, 0x6d#8, 0x6e#8, 0x6f#8, 0x70#8, 0x71#8, 0x72#8, 0x73#8, 0x74#8, 0x75#8, 0x76#8, 0x77#8, 0x78#8, 0x79#8, 0x7a#8, 0x7b#8, 0x7c#8, 0x7d#8, 0x7e#8, 0x7f#8, 0x80#8, 0x81#8, 0x82#8, 0x83#8, 0x84#8, 0x85#8, 0x86#8, 0x87#8, 0x88#8, 0x89#8, 0x8a#8, 0x8b#8, 0x8c#8, 0x8d#8, 0x8e#8, 0x8f#8] }, (admits_intro' _ _ _ (arrives_intro' _ _ _ (by decide) (by decide) (by decide) (by decide) (by decide)) (by decide) (by decide) (by decide)), (by decide), (by decide), (by decide), (by decide), (by decide), (by decide), (by decide), (by decide), (by decide), (by decide), (by decide)⟩
theorem RigRequestsServed_witness_4 :
    ∃ (s : State) (n : Fin 32) (p : Pkt) (h : Nat), s.admits (↑n) p ∧ p.opcode = opDoorbell ∧ s.ringOn
        (BitVec.toNat p.address % 65536) = true ∧ s.ringClass (BitVec.toNat p.address % 65536) = rcDoorbell ∧ sub32
        (s.devIdx (BitVec.toNat p.address % 65536)) (s.swIdx (BitVec.toNat p.address % 65536)) < s.ringSize
        (BitVec.toNat p.address % 65536) ∧ (BitVec.toNat (s.rd (R.RING_IDX_MIRROR (BitVec.toNat p.address %
        65536)))).testBit 62 = false ∧ target (s.unitAddr (BitVec.toNat p.address % 65536) (s.devIdx (BitVec.toNat
        p.address % 65536))) = Target.host h :=
  ⟨s19, 4, (pk 8 16 65 0x55 (List.replicate 16 7)), 66176, (admits_intro' _ _ _ (arrives_intro' _ _ _ (by decide)
      (by decide) (by decide) (by decide) (by decide)) (by decide) (by decide) (by decide)), (by decide), (by
      decide), (by decide), (by decide), (by decide), (by decide)⟩
theorem RigRequestsServed_witness_5 :
    ∃ (s : State) (n : Fin 32) (p : Pkt) (c : Instr), [Instr.read n p 0, Instr.write n p, Instr.atomicAdd n p,
        Instr.atomicUmax n p, Instr.atomicSmax n p, Instr.atomicCas n p, Instr.reduce n p, Instr.doorbell n
        p][p.opcode - opRead]? = some c ∧ opRead ≤ p.opcode ∧ s.arrives (↑n) p ∧ s.isOwn (BitVec.toNat p.dst) =
        true ∧ p.e2e = p.e2eTag ∧ s.shutOut p = true :=
  ⟨s20, 4, (pk 1 8 (gAddr 5 0x1000) 0 []), _, rfl, (by decide), (arrives_intro' _ _ _ (by decide) (by decide) (by
      decide) (by decide) (by decide)), (by decide), (by decide), (by decide)⟩
theorem RigRequestsServed_witness_6 :
    ∃ (s : State) (n : Fin 32) (p : Pkt) (c : Instr), [Instr.read n p 0, Instr.write n p, Instr.atomicAdd n p,
        Instr.atomicUmax n p, Instr.atomicSmax n p, Instr.atomicCas n p, Instr.reduce n p, Instr.doorbell n
        p][p.opcode - opRead]? = some c ∧ opRead ≤ p.opcode ∧ s.arrives (↑n) p ∧ s.isOwn (BitVec.toNat p.dst) =
        true ∧ p.e2e ≠ p.e2eTag :=
  ⟨s26, 4, { pk 1 8 (gAddr 5 0x1000) 0 [] with e2e := 7 }, _, rfl, (by decide), (arrives_intro' _ _ _ (by decide) (by decide) (by decide) (by decide) (by decide)), (by decide), (by decide)⟩
theorem RigRequestsServed_witness_7 :
    ∃ (s : State) (n : Fin 32) (p : Pkt) (c : Instr), [Instr.read n p 0, Instr.write n p, Instr.atomicAdd n p,
        Instr.atomicUmax n p, Instr.atomicSmax n p, Instr.atomicCas n p, Instr.reduce n p, Instr.doorbell n
        p][p.opcode - opRead]? = some c ∧ opRead ≤ p.opcode ∧ s.arrives (↑n) p ∧ s.isOwn (BitVec.toNat p.dst) =
        false :=
  ⟨s26, 4, (pk 2 8 (gAddr 7 0x1000) 0 [] 0 7), _, rfl, (by decide), (arrives_intro' _ _ _ (by decide) (by decide)
      (by decide) (by decide) (by decide)), (by decide)⟩
theorem RigRequestsServed_witness_8 :
    ∃ (s : State) (n : Fin 32) (p : Pkt), opReserved p.opcode = true ∧ s.arrives (↑n) p :=
  ⟨s26, 4, (pk 0x30 0 0 0 []), (by decide), (arrives_intro' _ _ _ (by decide) (by decide) (by decide) (by decide)
      (by decide))⟩
theorem RigOperationEnds_witness_0 :
    ∃ (s : State) (n : Fin 32) (p : Pkt), s.rig.ended = [] ∧ s.rig.waiting = [] ∧ s.recov.logs = [] ∧ s.grid.dma =
        [] ∧ s.boot.failing = false ∧ s.arrives (↑n) p ∧ p.opcode = opResponse ∧ s.isOwn (BitVec.toNat p.dst) =
        true ∧ s.fenced (BitVec.toNat p.source) = false ∧ tfind p.txn s.rig.ops = none :=
  ⟨s26, 4, { pk 0x10 8 (gAddr 9 0x5000) 0 [9,9] with txn := 8 }, (by decide), (by decide), (by decide), (by decide), (by decide), (arrives_intro' _ _ _ (by decide) (by decide) (by decide) (by decide) (by decide)), (by decide), (by decide), (by decide), (by decide)⟩
theorem RigOperationEnds_witness_1 :
    ∃ (s : State) (slot : Nat) (n : Fin 32) (p : Pkt) (o : OutOp), s.rig.ended = [] ∧ s.rig.waiting = [] ∧
        s.recov.logs = [] ∧ s.grid.dma = [] ∧ s.boot.failing = false ∧ s.arrives (↑n) p ∧ p.opcode = opResponse ∧
        s.isOwn (BitVec.toNat p.dst) = true ∧ s.fenced (BitVec.toNat p.source) = false ∧ tfind p.txn s.rig.ops =
        some o ∧ o.issuer = Issuer.missEngine slot ∧ p.e2e = p.e2eTag ∧ p.aux % 256 = stOk :=
  ⟨s17, 3, 4, (pk 0x10 8 (gAddr 9 0x5000) 0 [9,9]), _, (by decide), (by decide), (by decide), (by decide), (by
      decide), (arrives_intro' _ _ _ (by decide) (by decide) (by decide) (by decide) (by decide)), (by decide), (by
      decide), (by decide), rfl, (by decide), (by decide), (by decide)⟩
theorem RigOperationEnds_witness_2 :
    ∃ (s : State) (slot : Nat) (n : Fin 32) (p : Pkt) (o : OutOp), s.rig.ended = [] ∧ s.rig.waiting = [] ∧
        s.recov.logs = [] ∧ s.grid.dma = [] ∧ s.boot.failing = false ∧ s.arrives (↑n) p ∧ p.opcode = opResponse ∧
        s.isOwn (BitVec.toNat p.dst) = true ∧ s.fenced (BitVec.toNat p.source) = false ∧ tfind p.txn s.rig.ops =
        some o ∧ o.issuer = Issuer.missEngine slot ∧ p.e2e ≠ p.e2eTag :=
  ⟨s17, 3, 4, { pk 0x10 8 (gAddr 9 0x5000) 0 [9,9] with e2e := 5 }, _, (by decide), (by decide), (by decide), (by decide), (by decide), (arrives_intro' _ _ _ (by decide) (by decide) (by decide) (by decide) (by decide)), (by decide), (by decide), (by decide), rfl, (by decide), (by decide)⟩
theorem RigOperationEnds_witness_3 :
    ∃ (s : State) (slot : Nat) (txn : W32) (o : OutOp), s.rig.ended = [] ∧ s.rig.waiting = [] ∧ s.recov.logs = [] ∧
        s.grid.dma = [] ∧ s.boot.failing = false ∧ tfind (BitVec.toNat txn) s.rig.ops = some o ∧ o.issuer =
        Issuer.missEngine slot ∧ s.grid.idle = true ∧ s.unsent (BitVec.toNat txn) o = false :=
  ⟨s17, 3, 7, _, (by decide), (by decide), (by decide), (by decide), (by decide), rfl, (by decide), (by decide),
      (by decide)⟩
theorem RigLinkLayer_witness_0 :
    ∃ (s : State) (n : Fin 32) (seq : BitVec 12), s.linkState ↑n = lsUp ∧ s.boot.failing = false ∧ s.flag
        (F.RIGP_CFG_ENC ↑n) = false ∧ (s.rigPort ↑n).rx.due = false ∧ seqIndex seq.toNat (s.rigPort ↑n).replay =
        none :=
  ⟨s28, 4, 6, (by decide), (by decide), (by decide), (by decide), (by decide)⟩
theorem RigLinkLayer_witness_2 :
    ∃ (s : State) (n : Fin 32) (seq : BitVec 12) (i : Nat), s.linkState ↑n = lsUp ∧ s.boot.failing = false ∧ s.flag
        (F.RIGP_CFG_ENC ↑n) = false ∧ (s.rigPort ↑n).rx.due = false ∧ seqIndex seq.toNat (s.rigPort ↑n).replay =
        some i ∧ (s.rigPort ↑n).q0 = [] ∧ (s.rigPort ↑n).q1 = [] ∧ (s.rigPort ↑n).q2 = [] ∧ s.rig.waiting = [] :=
  ⟨s25, 4, 5, 2, (by decide), (by decide), (by decide), (by decide), (by decide), (by decide), (by decide), (by
      decide), (by decide)⟩
theorem RigLinkLayer_witness_3 :
    ∃ (s : State) (n : Fin 32) (seq : BitVec 12) (i : Nat), s.linkState ↑n = lsUp ∧ s.boot.failing = false ∧ s.flag
        (F.RIGP_CFG_ENC ↑n) = false ∧ (s.rigPort ↑n).rx.due = false ∧ seqIndex seq.toNat (s.rigPort ↑n).replay =
        some i ∧ (s.rigPort ↑n).resends < max 1 (s.gf F.RIG_CTRL_RETRY_LIMIT) :=
  ⟨s24, 4, 5, 2, (by decide), (by decide), (by decide), (by decide), (by decide), (by decide)⟩
theorem RigLinkLayer_witness_4 :
    ∃ (s : State) (n : Fin 32), s.linkState ↑n = lsUp ∧ s.boot.failing = false ∧ s.flag (F.RIGP_CFG_ENC ↑n) = false
        ∧ (s.rigPort ↑n).rx.due = false ∧ (s.rigPort ↑n).replay ≠ [] ∧ (s.rigPort ↑n).resends < max 1 (s.gf
        F.RIG_CTRL_RETRY_LIMIT) ∧ s.grid.idle = true :=
  ⟨s24, 4, (by decide), (by decide), (by decide), (by decide), (by decide), (by decide), (by decide)⟩
theorem RigLinkLayer_witness_5 :
    ∃ (s : State) (n : Fin 32), s.linkState ↑n = lsUp ∧ s.boot.failing = false ∧ s.flag (F.RIGP_CFG_ENC ↑n) = false
        ∧ (s.rigPort ↑n).rx.due = false ∧ (s.rigPort ↑n).q0 = [] ∧ (s.rigPort ↑n).q1 = [] ∧ (s.rigPort ↑n).q2 = []
        ∧ s.rig.waiting = [] :=
  ⟨s28, 4, (by decide), (by decide), (by decide), (by decide), (by decide), (by decide), (by decide), (by decide)⟩
theorem RigLinkLayer_witness_6 :
    ∃ (s : State) (n : Fin 32), s.linkState ↑n = lsUp ∧ s.boot.failing = false ∧ s.flag (F.RIGP_CFG_ENC ↑n) = false
        ∧ (s.rigPort ↑n).rx.due = false ∧ (s.rigPort ↑n).unacked ≠ 0 ∧ s.grid.idle = true :=
  ⟨s26, 4, (by decide), (by decide), (by decide), (by decide), (by decide), (by decide)⟩
theorem RigLinkLayer_witness_7 :
    ∃ (s : State) (n : Fin 32), s.linkState ↑n = lsUp ∧ s.boot.failing = false ∧ s.flag (F.RIGP_CFG_ENC ↑n) = false
        ∧ (s.rigPort ↑n).rx.due = false ∧ (s.rigPort ↑n).nakSent = true :=
  ⟨s27, 4, (by decide), (by decide), (by decide), (by decide), (by decide)⟩
theorem RigLinkLayer_witness_8 :
    ∃ (s : State) (n : Fin 32), s.linkState ↑n = lsUp ∧ s.boot.failing = false ∧ s.flag (F.RIGP_CFG_ENC ↑n) = false
        ∧ (s.rigPort ↑n).rx.due = false ∧ (s.rigPort ↑n).nakSent = false :=
  ⟨s28, 4, (by decide), (by decide), (by decide), (by decide), (by decide)⟩
theorem RigLinkLayer_witness_9 :
    ∃ (s : State) (n : Fin 32), s.linkState ↑n = lsUp ∧ s.boot.failing = false ∧ (s.rigPort ↑n).replay ≠ [] ∧ max 1
        (s.gf F.RIG_CTRL_RETRY_LIMIT) ≤ (s.rigPort ↑n).resends ∧ s.rig.ops = [] ∧ (s.rigPort ↑n).q0 = [] ∧
        (s.rigPort ↑n).q1 = [] ∧ s.rig.ended = [] ∧ s.rig.waiting = [] ∧ s.recov.logs = [] ∧ s.grid.dma = [] ∧
        (s.rigPort ↑n).advAt + 4 * 2048 ≤ s.now :=
  ⟨s25, 4, (by decide), (by decide), (by decide), (by decide), (by decide), (by decide), (by decide), (by decide),
      (by decide), (by decide), (by decide), (by decide)⟩
theorem RigLinkLayer_witness_10 :
    ∃ (s : State) (n : Fin 32) (isTx : Bool), s.linkState ↑n = lsUp ∧ s.boot.failing = false ∧ s.flag
        (F.RIGP_CFG_ENC ↑n) = true ∧ (if isTx = true then (s.rigPort ↑n).tx else (s.rigPort ↑n).rx).due = true :=
  ⟨s29, 4, true, (by decide), (by decide), (by decide), (by decide)⟩
end Rigging

/-! ### Membership and the crow's nest: what meets the hypotheses -/

namespace Membership
def act (s : State := rdy) : State := s.sf F.REC_CFG_MODE 0
def repl_ (s : State) : State := (s.wrN (R.REC_REPLICA 1) (2^63 + gAddr 5 0x4000))
def hold (s : State :=
  rdy) : State := { (s.sf F.REC_NEST_STATUS_HOLDER 1) with recov := { s.recov with lease := 3 * 2^44 + 0xffffffff * 2^12 + 5, renewAt := 500, leaseAt := 500, hbSeen := [(7, (55, 2)), (8, (55, 0))] } }
def nest (s : State :=
  rdy) : State := { s with recov := { s.recov with lease := 3 * 2^44 + 9 * 2^12 + 6, leaseAt := 5 } }
def s3 : State := (repl_ (act)).hbmWrite 0x4000 (List.replicate 8 0xff) 0
def s4 : State := hold
def s5 : State := (hold).sf F.REC_HEARTBEAT_HB_MISS 4
def s8 : State := { nest with recov := { nest.recov with leaseCheckAt := 200000000 } }
def s9 : State := nest.sf F.REC_EVENTS_NEST_LOST 1
def s12 : State := rdy.sf F.MODULE_STATE_STATE 4
def s13 : State := rdy.sf F.REC_CFG_MODE 2
theorem MembershipAndNest_witness_0 :
    ∃ (s : State) (a : Nat), s.boot.failing = false ∧ s.grid.idle = true ∧ s.recov.hbStopped = false ∧ s.recMode ≤
        mdStandby ∧ s.ready = true ∧ s.replicas = [a] :=
  ⟨s3, 87960930238464, (by decide), (by decide), (by decide), (by decide), (by decide), (by decide)⟩
theorem MembershipAndNest_witness_1 :
    ∃ (s : State) (m : ModNum) (w : W64) (k : Nat), s.boot.failing = false ∧ s.grid.idle = true ∧ s.holder = true ∧
        s.replicas = [] ∧ s.recov.failedMods.contains (BitVec.toNat m) = false ∧ tfind (BitVec.toNat m)
        s.recov.hbSeen = some (BitVec.toNat w, k) ∧ max 1 (s.gf F.REC_HEARTBEAT_HB_MISS) ≤ k + 1 :=
  ⟨s4, 8, 0x37, 0, (by decide), (by decide), (by decide), (by decide), (by decide), (by decide), (by decide)⟩
theorem MembershipAndNest_witness_2 :
    ∃ (s : State) (m : ModNum) (w : W64) (k : Nat) (old : Nat), s.boot.failing = false ∧ s.grid.idle = true ∧
        s.holder = true ∧ s.replicas = [] ∧ s.recov.failedMods.contains (BitVec.toNat m) = false ∧ tfind
        (BitVec.toNat m) s.recov.hbSeen = some (old, k) ∧ old ≠ BitVec.toNat w :=
  ⟨s5, 8, 0x300000009006, 0, 55, (by decide), (by decide), (by decide), (by decide), (by decide), (by decide), (by
      decide)⟩
theorem MembershipAndNest_witness_3 :
    ∃ (s : State) (w : Fin 64) (v : W64), s.boot.failing = false ∧ s.grid.idle = true ∧ (s.modnum / 64 ≠ ↑w ∨
        (BitVec.toNat v).testBit (s.modnum % 64) = false) :=
  ⟨s13, 63, 0x300000009006, (by decide), (by decide), (by decide)⟩
theorem MembershipAndNest_witness_4 :
    ∃ (s : State) (w : Fin 64) (v : W64), s.boot.failing = false ∧ s.grid.idle = true ∧ s.modnum / 64 = ↑w ∧
        (BitVec.toNat v).testBit (s.modnum % 64) = true ∧ ((List.range 16).all fun p => !s.portOn p) = true ∧
        s.rig.ops = [] :=
  ⟨s13, 0, 0x20, (by decide), (by decide), (by decide), (by decide), (by decide), (by decide)⟩
theorem MembershipAndNest_witness_5 :
    ∃ (s : State), s.boot.failing = false ∧ s.grid.idle = true ∧ s.holder = true ∧ s.replicas = [] :=
  ⟨s5, (by decide), (by decide), (by decide), (by decide)⟩
theorem MembershipAndNest_witness_8 :
    ∃ (s : State) (word : W64), s.boot.failing = false ∧ s.grid.idle = true ∧ s.holder = false ∧ s.replicas = [] ∧
        BitVec.toNat word = s.recov.lease ∧ s.recov.leaseAt + leaseStale ≤ max s.now (s.recov.leaseCheckAt +
        leasePeriod) :=
  ⟨s8, 0x300000009006, (by decide), (by decide), (by decide), (by decide), (by decide), (by decide)⟩
theorem MembershipAndNest_witness_9 :
    ∃ (s : State) (word : W64), s.boot.failing = false ∧ s.grid.idle = true ∧ s.holder = false ∧ s.replicas = [] ∧
        BitVec.toNat word ≠ s.recov.lease :=
  ⟨s13, 0x300000009006, (by decide), (by decide), (by decide), (by decide), (by decide)⟩
theorem MembershipAndNest_witness_10 :
    ∃ (s : State), s.boot.failing = false ∧ s.grid.idle = true ∧ s.holder = false ∧ s.replicas = [] :=
  ⟨s13, (by decide), (by decide), (by decide), (by decide)⟩
theorem MembershipAndNest_witness_11 :
    ∃ (s : State), s.boot.failing = false ∧ s.grid.idle = true ∧ s.holder = false ∧ s.replicas = [] ∧ s.flag
        F.REC_EVENTS_NEST_LOST = true :=
  ⟨s9, (by decide), (by decide), (by decide), (by decide), (by decide)⟩
theorem MembershipAndNest_witness_12 :
    ∃ (s : State), s.boot.failing = false ∧ s.grid.idle = true ∧ s.holder = false ∧ s.replicas = [] ∧ s.flag
        F.REC_EVENTS_NEST_LOST = false :=
  ⟨s13, (by decide), (by decide), (by decide), (by decide), (by decide)⟩
theorem MembershipAndNest_witness_13 :
    ∃ (s : State), s.boot.failing = false ∧ s.grid.idle = true ∧ (s.modState = msReady ∨ s.modState = msRetiring) :=
  ⟨s13, (by decide), (by decide), (by decide)⟩
theorem MembershipAndNest_witness_14 :
    ∃ (s : State), s.boot.failing = false ∧ s.grid.idle = true ∧ s.modState ≠ msReady ∧ s.modState ≠ msRetiring :=
  ⟨s12, (by decide), (by decide), (by decide), (by decide)⟩
theorem MembershipAndNest_witness_15 :
    ∃ (s : State) (v : BitVec 2), s.boot.failing = false ∧ s.grid.idle = true ∧ s.recMode ≠ mdLeft ∧ v.toNat ≤ 1 :=
  ⟨s12, 1, (by decide), (by decide), (by decide), (by decide)⟩
theorem MembershipAndNest_witness_16 :
    ∃ (s : State) (v : BitVec 2), s.boot.failing = false ∧ s.grid.idle = true ∧ (s.recMode = mdLeft ∨ 1 < v.toNat) :=
  ⟨s13, 1, (by decide), (by decide), (by decide)⟩
end Membership

/-! ### Epochs and re-maps: what meets the hypotheses -/

namespace Epochs
def act (s : State := rdy) : State := s.sf F.REC_CFG_MODE 0
def hold (s : State :=
  rdy) : State := { (s.sf F.REC_NEST_STATUS_HOLDER 1) with recov := { s.recov with lease := 3 * 2^44 + 9 * 2^12 + 5, renewAt := 500, leaseAt := 500, hbSeen := [(7, (55, 2)), (8, (55, 0))] } }
def mir (s : State) : State :=
  ((s.wrN R.REC_MIRROR (512 * 2^48 + 0x40 * 2^20)).wrN R.REC_SNAP (4 * 2^48 + 0x20 * 2^20)).wrN R.REC_BUDDY (9 * 65536 + 8)
def rng (s : State) : State :=
  ((s.wrN (R.REC_RANGE_BASE 2) (2^63 + 3 * 4096)).wrN (R.REC_RANGE_LEN 2) (0x55 * 2^32 + 2)).hbmWrite 0x3010 [1,2,3,4] 0
def chk (c : Checkpoint) (s : State) : State := { s with recov := { s.recov with checkpoint := some c } }
def led (e : Nat) (s : State) : State :=
  { s with hly := { s.hly with ledger := [(7, { isOpen := true, kind := 1, slot := 0, port := 0, epoch := e, order := 0 })] }, recov := { s.recov with serveWant := 9 } }
def disp : Dispatch := { plan := 1, image := plan1 0 0, mailbox := 7, tag := 5 }
def cur (s : State) : State := { s with job := { s.job with cur := some disp, mail := [(7, { state := 1 })] } }
def rt (s : State) : State := ((s.wrN R.REC_EPOCH 4).wrN (R.RIG_ROUTE 8) 0xff).wrN R.REC_BUDDY (9 * 65536 + 7)
def s3 : State := mir (act)
def s4 : State := rng (mir (act))
def s5 : State := rng (act)
def s8 : State :=
  { chk { cut := 5, bytes := 100 } rdy with recov := { (chk { cut := 5, bytes := 100 } rdy).recov with rangeWait := [(R.REC_RANGE_LEN 0, 0x8000000000001000)] } }
def s11 : State := led 2 (rdy.wrN R.REC_SERVE_EPOCH 3)
def s14 : State := rt (cur rdy)
def s15 : State := rt rdy
def s16 : State := rt hold
theorem EpochsAndRemaps_witness_0 :
    ∃ (s : State), s.boot.failing = false ∧ s.holder = true ∧ s.recov.epochOpen = none :=
  ⟨s16, (by decide), (by decide), (by decide)⟩
theorem EpochsAndRemaps_witness_1 :
    ∃ (s : State), s.boot.failing = false ∧ s.recMode = mdActive ∧ s.recov.checkpoint = none ∧ s.atCheckpoint =
        true ∧ s.modState ≠ msFailed ∧ s.checkpointFails = true :=
  ⟨s5, (by decide), (by decide), (by decide), (by decide), (by decide), (by decide)⟩
theorem EpochsAndRemaps_witness_2 :
    ∃ (s : State), s.boot.failing = false ∧ s.recMode = mdActive ∧ s.recov.checkpoint = none ∧ s.atCheckpoint =
        true ∧ s.modState ≠ msFailed ∧ s.checkpointFails = false ∧ s.mranges = [] :=
  ⟨s3, (by decide), (by decide), (by decide), (by decide), (by decide), (by decide), (by decide)⟩
theorem EpochsAndRemaps_witness_3 :
    ∃ (s : State) (r : MRange) (w : Nat), s.boot.failing = false ∧ s.recMode = mdActive ∧ s.recov.checkpoint = none
        ∧ s.atCheckpoint = true ∧ s.modState ≠ msFailed ∧ s.checkpointFails = false ∧ s.mranges = [r] ∧ r.owner =
        some w ∧ s.isOwn (s.gf F.REC_BUDDY_BUDDY) = false :=
  ⟨s4, _, 85, (by decide), (by decide), (by decide), (by decide), (by decide), (by decide), rfl, (by decide), (by
      decide)⟩
theorem EpochsAndRemaps_witness_4 :
    ∃ (s : State) (c : Checkpoint), s.boot.failing = false ∧ s.recov.checkpoint = some c ∧ c.done = false ∧
        c.failed = false ∧ c.left = 0 :=
  ⟨s8, _, (by decide), rfl, (by decide), (by decide), (by decide)⟩
theorem EpochsAndRemaps_witness_5 :
    ∃ (s : State) (c : Checkpoint) (o : Nat) (v : W64) (epoch : W64), s.boot.failing = false ∧ s.modState ≠
        msFailed ∧ s.recov.checkpoint = some c ∧ c.handover = false ∧ s.recov.rangeWait = [(o, v)] ∧ (o =
        R.REC_RANGE_BASE 0 ∨ o = R.REC_RANGE_LEN 0) ∧ s.recMode = mdStandby ∧ s.recov.left = false ∧ s.hly.ledger =
        [] ∧ s.hly.upds = [] ∧ s.recov.logs = [] ∧ s.rig.ended = [] ∧ s.gf F.REC_SERVE_EPOCH_EPOCH < BitVec.toNat
        epoch :=
  ⟨s8, _, 117441544, _, 0x8000000000001000, (by decide), (by decide), rfl, (by decide), rfl, (by decide), (by
      decide), (by decide), (by decide), (by decide), (by decide), (by decide), (by decide)⟩
theorem EpochsAndRemaps_witness_6 :
    ∃ (s : State), s.boot.failing = false ∧ s.modState ≠ msFailed :=
  ⟨s15, (by decide), (by decide)⟩
theorem EpochsAndRemaps_witness_7 :
    ∃ (s : State) (e : Nat), s.boot.failing = false ∧ s.recov.left = false ∧ s.gf F.REC_SERVE_EPOCH_EPOCH <
        s.recov.serveWant ∧ s.recov.serveWant < 2 ^ 64 ∧ s.oldestOpen = some e :=
  ⟨s11, 2, (by decide), (by decide), (by decide), (by decide), (by decide)⟩
theorem EpochsAndRemaps_witness_8 :
    ∃ (s : State), s.boot.failing = false :=
  ⟨s15, (by decide)⟩
theorem EpochsAndRemaps_witness_9 :
    ∃ (s : State) (owners : List W32) (d : Dispatch) (to_ : Option ModNum), s.boot.failing = false ∧ s.modState ≠
        msFailed ∧ s.job.cur = some d ∧ (List.map (fun x => BitVec.toNat x) owners).contains (planOwner d.image) =
        true ∧ s.job.queue = [] ∧ (to_ = none ∨ s.gf F.REC_EPOCH_EPOCH = 0) :=
  ⟨s14, [0x77], _, none, (by decide), (by decide), rfl, (by decide), (by decide), (by decide)⟩
theorem EpochsAndRemaps_witness_10 :
    ∃ (s : State) (f : ModNum) (record : StateRecord) (to_ : ModNum), s.boot.failing = false ∧ s.modState ≠
        msFailed ∧ BitVec.toNat to_ = s.modnum ∧ s.holder = false ∧ s.gf F.REC_EPOCH_EPOCH ≠ 0 ∧ s.gf
        F.REC_BUDDY_WARD ≠ BitVec.toNat f ∧ record.regs = [] ∧ s.grid.dma = [] ∧ s.rig.ended = [] ∧ s.rig.waiting =
        [] ∧ s.recov.logs = [] :=
  ⟨s15, 5, {}, 5, (by decide), (by decide), (by decide), (by decide), (by decide), (by decide), (by decide), (by
      decide), (by decide), (by decide), (by decide)⟩
theorem EpochsAndRemaps_witness_11 :
    ∃ (s : State) (f : ModNum) (to_ : ModNum), s.boot.failing = false ∧ s.modState ≠ msFailed ∧ s.holder = true ∧
        BitVec.toNat f ≠ s.modnum ∧ BitVec.toNat to_ ≠ s.modnum ∧ s.gf F.REC_EPOCH_EPOCH ≠ 0 ∧ s.fenced s.modnum =
        false ∧ s.rig.ops = [] ∧ s.grid.dma = [] ∧ s.rig.ended = [] ∧ s.rig.waiting = [] ∧ s.recov.logs = [] :=
  ⟨s16, 8, 8, (by decide), (by decide), (by decide), (by decide), (by decide), (by decide), (by decide), (by
      decide), (by decide), (by decide), (by decide), (by decide)⟩
end Epochs

/-! ### Start and resets: what meets the hypotheses -/

namespace Start
def b : State := State.reset
def at_ (k : Nat) (s : State :=
  b) : State := { s with boot := { s.boot with fuse := { serial := 0x1234567890, rootHash := List.replicate 48 0xA5, linkEnc := true, svn := 3, idKey := some 5, chain := [1,2,3] } }, pwr := { s.pwr with vinUp := true, good := true } } |>.sf F.BOOT_STATUS_STEP k
def cs (s : State) (c : Nat) : State := { s with boot := { s.boot with cause := c } }
def v (x : Byte) : Vector Byte 6 := Vector.replicate 6 x
def s0 : State := b
def s3 : State := { (at_ 2) with pwr := { vinUp := true } }
def s4 : State := { (at_ 2) with now := 5000000, pwr := { vinUp := true, latch := 2 } }
def s6 : State := { (at_ 3) with boot := { (at_ 3).boot with resetLow := true, cause := 4 } }
def s8 : State := { (at_ 3) with pwr := { (at_ 3).pwr with smbStrap := 2, pcieLost := true } }
def s11 : State := cs (at_ 4) 3
def s14 : State := { (at_ 5) with boot := { (at_ 5).boot with wdtCount := 2 } }
def s16 : State := ((at_ 6).sf F.CLK_N_CAP_N_CAP 90).sf F.AGE_CFG_MARGIN_TARGET 3
def s17 : State := at_ 7
def s19 : State := { (at_ 7) with boot := { (at_ 7).boot with selfSites := [(0x123, 5)] } }
def s20 : State := at_ 8
def s21 : State := ((at_ 8).sf F.SEC_STATUS_RNG_OK 1).sf (F.RIGP_CFG_ROLE 4) 1
def s22 : State := (((at_ 9).sf F.MODULE_STATE_STATE 2).sf F.SEC_STATUS_RNG_OK 1)
def s24 : State := ((((at_ 9).sf F.MODULE_STATE_STATE 2).sf (F.RIGP_CFG_ROLE 4) 1).sf F.BOOT_START_CFG_MIN_RIG_PORTS 1)
def s25 : State := ((((at_ 9).sf F.MODULE_STATE_STATE 2).sf (F.RIGP_CFG_ROLE 4) 1).sf F.BOOT_START_CFG_LINK_WAIT_S 2)
def s26 : State := (((at_ 11).sf F.MODULE_STATE_STATE 3).sf F.SEC_SVN_IMAGE_SVN 9).sf F.BOOT_START_CFG_HOST_RESTART 1
def s27 : State := { ((at_ 11).sf F.MODULE_STATE_STATE 3) with boot := { (at_ 11).boot with coreStopped := true } }
theorem StartAndResets_witness_0 :
    ∃ (s : State), s.boot.failing = false ∧ s.pwr.vinUp = false :=
  ⟨s0, (by decide), (by decide)⟩
theorem StartAndResets_witness_1 :
    ∃ (s : State), s.boot.failing = false ∧ s.pwr.vinUp = true :=
  ⟨s27, (by decide), (by decide)⟩
theorem StartAndResets_witness_2 :
    ∃ (s : State), s.boot.failing = false ∧ s.step_ = 2 ∧ s.pwr.latch = 0 ∧ s.pwr.startFail = false :=
  ⟨s3, (by decide), (by decide), (by decide), (by decide)⟩
theorem StartAndResets_witness_3 :
    ∃ (s : State), s.boot.failing = false ∧ s.step_ = 2 ∧ s.grid.idle = true :=
  ⟨s4, (by decide), (by decide), (by decide)⟩
theorem StartAndResets_witness_4 :
    ∃ (s : State), s.boot.failing = false ∧ s.step_ = 3 ∧ s.powered = true ∧ s.boot.resetLow = false :=
  ⟨s8, (by decide), (by decide), (by decide), (by decide)⟩
theorem StartAndResets_witness_5 :
    ∃ (s : State), s.boot.failing = false ∧ s.boot.resetLow = true :=
  ⟨s6, (by decide), (by decide)⟩
theorem StartAndResets_witness_6 :
    ∃ (s : State), s.boot.failing = false ∧ s.step_ = 4 ∧ s.modState ≠ msFailed :=
  ⟨s11, (by decide), (by decide), (by decide)⟩
theorem StartAndResets_witness_7 :
    ∃ (s : State), s.boot.failing = false ∧ s.step_ = 5 ∧ s.modState ≠ msFailed ∧ s.dark :=
  ⟨s14, (by decide), (by decide), (by decide), (dark_intro' _ (by decide) (by decide))⟩
theorem StartAndResets_witness_8 :
    ∃ (s : State) (samples : List (List (Vector Byte 6))) (n : Nat), s.boot.failing = false ∧ s.step_ = 6 ∧
        s.modState ≠ msFailed ∧ 80 ≤ n ∧ n ≤ s.nCap ∧ ((fun n => s.marginOk ((fun n => samples.getD (n - 80) []) n)
        (s.tryN ((fun n => samples.getD (n - 80) []) n) (List.map (fun r => s.gf (F.AGE_RAIL_V_START_MV r))
        (List.range 6))) (s.gf F.AGE_CFG_START_GUARD)) n = true ∨ n = 80) ∧ (∀ (m : Nat), n < m → m ≤ s.nCap → (fun
        n => s.marginOk ((fun n => samples.getD (n - 80) []) n) (s.tryN ((fun n => samples.getD (n - 80) []) n)
        (List.map (fun r => s.gf (F.AGE_RAIL_V_START_MV r)) (List.range 6))) (s.gf F.AGE_CFG_START_GUARD)) m =
        false) :=
  ⟨s16, [], 80, (by decide), (by decide), (by decide), (by decide), (by decide), (by decide), (upTo (by decide))⟩
theorem StartAndResets_witness_9 :
    ∃ (s : State) (rows : List (W32 × List Byte)) (faulted : List W32), s.boot.failing = false ∧ s.step_ = 7 ∧
        s.modState ≠ msFailed ∧ (s.boot.selfSites.all fun e => decide (crc32c (slice ((fun site => (Option.map (fun
        x => x.snd) (List.find? (fun x => decide (BitVec.toNat x.fst = site)) rows)).getD []) e.fst) 0 (if isM
        (siteField e.fst) = true then 896 else 1024)) = e.snd) && !faulted.any fun f => decide (BitVec.toNat f =
        e.fst)) = true :=
  ⟨s17, [], [], (by decide), (by decide), (by decide), (by decide)⟩
theorem StartAndResets_witness_10 :
    ∃ (s : State) (rows : List (W32 × List Byte)) (faulted : List W32), s.boot.failing = false ∧ s.step_ = 7 ∧
        s.modState ≠ msFailed ∧ (s.boot.selfSites.all fun e => decide (crc32c (slice ((fun site => (Option.map (fun
        x => x.snd) (List.find? (fun x => decide (BitVec.toNat x.fst = site)) rows)).getD []) e.fst) 0 (if isM
        (siteField e.fst) = true then 896 else 1024)) = e.snd) && !faulted.any fun f => decide (BitVec.toNat f =
        e.fst)) = false ∧ s.dark :=
  ⟨s19, [], [0x123], (by decide), (by decide), (by decide), (List.all_eq_false.mpr ⟨(0x123, 5), by decide, by
      simp⟩), (dark_intro' _ (by decide) (by decide))⟩
theorem StartAndResets_witness_11 :
    ∃ (s : State) (ok : BitVec 8), s.boot.failing = false ∧ s.step_ = 8 ∧ s.modState ≠ msFailed ∧ ok.toNat ≠ 255 ∧
        s.dark :=
  ⟨s21, 5, (by decide), (by decide), (by decide), (by decide), (dark_intro' _ (by decide) (by decide))⟩
theorem StartAndResets_witness_12 :
    ∃ (s : State) (ok : BitVec 8), s.boot.failing = false ∧ s.step_ = 8 ∧ s.modState ≠ msFailed ∧ ok.toNat = 255 ∧
        s.rngOk = true ∧ s.boot.models = [] :=
  ⟨s21, 0xff, (by decide), (by decide), (by decide), (by decide), (by decide), (by decide)⟩
theorem StartAndResets_witness_13 :
    ∃ (s : State) (ok : BitVec 8), s.boot.failing = false ∧ s.step_ = 8 ∧ s.modState ≠ msFailed ∧ ok.toNat = 255 ∧
        s.rngOk = false :=
  ⟨s20, 0xff, (by decide), (by decide), (by decide), (by decide), (by decide)⟩
theorem StartAndResets_witness_14 :
    ∃ (s : State), s.boot.failing = false ∧ s.grid.idle = true ∧ s.modState = msLinking ∧ (s.allUp = true ∨
        s.enoughUp = true) :=
  ⟨s25, (by decide), (by decide), (by decide), (by decide)⟩
theorem StartAndResets_witness_15 :
    ∃ (s : State), s.boot.failing = false ∧ s.grid.idle = true ∧ s.modState = msLinking ∧ s.allUp = false ∧
        s.enoughUp = false :=
  ⟨s24, (by decide), (by decide), (by decide), (by decide), (by decide)⟩
theorem StartAndResets_witness_16 :
    ∃ (s : State), s.boot.failing = false ∧ s.grid.idle = true ∧ s.modState = msLinking ∧ s.enoughUp = false :=
  ⟨s24, (by decide), (by decide), (by decide), (by decide)⟩
theorem StartAndResets_witness_17 :
    ∃ (s : State), s.boot.failing = false ∧ s.grid.idle = true ∧ s.modState = msLinking ∧ s.enoughUp = true :=
  ⟨s25, (by decide), (by decide), (by decide), (by decide)⟩
theorem StartAndResets_witness_18 :
    ∃ (s : State), s.boot.failing = false ∧ s.step_ < 3 :=
  ⟨s4, (by decide), (by decide)⟩
theorem StartAndResets_witness_19 :
    ∃ (s : State), s.boot.failing = false :=
  ⟨s27, (by decide)⟩
theorem StartAndResets_witness_20 :
    ∃ (s : State), s.boot.failing = false ∧ s.powered = true ∧ 3 < s.step_ :=
  ⟨s27, (by decide), (by decide), (by decide)⟩
theorem StartAndResets_witness_22 :
    ∃ (s : State), s.boot.failing = false ∧ s.powered = true ∧ 3 < s.step_ ∧ s.flag F.BOOT_START_CFG_HOST_RESTART =
        true :=
  ⟨s26, (by decide), (by decide), (by decide), (by decide)⟩
theorem StartAndResets_witness_23 :
    ∃ (s : State), s.boot.failing = false ∧ s.powered = true ∧ 3 < s.step_ ∧ s.flag F.BOOT_START_CFG_HOST_RESTART =
        false :=
  ⟨s27, (by decide), (by decide), (by decide), (by decide)⟩
theorem StartAndResets_witness_24 :
    ∃ (s : State), s.boot.failing = false ∧ s.powered = true ∧ s.step_ = 3 :=
  ⟨s8, (by decide), (by decide), (by decide)⟩
theorem StartAndResets_witness_28 :
    ∃ (s : State), s.boot.failing = false ∧ 5 ≤ s.step_ ∧ s.powered = true ∧ s.grid.idle = true ∧ s.boot.wdtCount < 2 :=
  ⟨s27, (by decide), (by decide), (by decide), (by decide), (by decide)⟩
theorem StartAndResets_witness_29 :
    ∃ (s : State), s.boot.failing = false ∧ 5 ≤ s.step_ ∧ s.powered = true ∧ s.grid.idle = true ∧ 2 ≤ s.boot.wdtCount :=
  ⟨s14, (by decide), (by decide), (by decide), (by decide), (by decide)⟩
theorem StartAndResets_witness_30 :
    ∃ (s : State) (v : W32), s.boot.failing = false ∧ v = 1398165025 ∧ s.modState = msReady ∧ s.boot.fuse.svn <
        s.gf F.SEC_SVN_IMAGE_SVN :=
  ⟨s26, 0x53564e21, (by decide), (by decide), (by decide), (by decide)⟩
theorem StartAndResets_witness_31 :
    ∃ (s : State) (v : W32), s.boot.failing = false ∧ (v ≠ 1398165025 ∨ s.modState ≠ msReady ∨ s.gf
        F.SEC_SVN_IMAGE_SVN ≤ s.boot.fuse.svn) :=
  ⟨s27, 0x4b49434b, (by decide), (by decide)⟩
theorem StartAndResets_witness_32 :
    ∃ (s : State), s.boot.failing = false ∧ s.rngOk = true :=
  ⟨s22, (by decide), (by decide)⟩
end Start

/-! ### Ageing, power and clocks: what meets the hypotheses -/

namespace Supply
def b : State := State.reset
def up (s : State) : State := ((s.sf F.MODULE_STATE_STATE 3).sf F.BOOT_STATUS_STEP 11)
def s0 : State := b
def s3 : State :=
  { ((up (b.sf (F.AGE_RAIL_V_MAX_MV 2) 800)).sf F.AGE_CFG_MARGIN_TARGET 5) with pwr := { vinUp := true, good := true, worst := [(2, -3)], latch := 0 } }
def s5 : State :=
  { ((((up (b.sf (F.AGE_RAIL_V_MAX_MV 2) 800)).sf F.AGE_CFG_MARGIN_TARGET 5).sf (F.AGE_RAIL_V_MV 2) 800).sf F.CLK_STATUS_N 90) with now := 777777, pwr := { vinUp := true, good := true, worst := [(2, -3)], latch := 2, latchAt := 100 } }
def s6 : State := { (up b) with pwr := { vinUp := true, good := true, worst := [(5, 3)] } }
def s8 : State := ((((up b).sf F.CLK_STATUS_REEF_PENDING 1).sf F.CLK_STATUS_N 90).sf F.PWR_STATUS_THROTTLE 4)
def s9 : State :=
  { (((up b).sf F.CLK_STATUS_REEF_PENDING 1).sf F.CLK_STATUS_GLIDING 1) with pwr := { glide := some (89, 5000) }, now := 33 }
def s12 : State := (((up b).sf (F.RIGP_CFG_ROLE 3) 1).sf (F.RIGP_CFG_ROLE 5) 2).sf (F.RIGP_STATUS_LINK_STATE 5) 4
def s13 : State :=
  (((up b).sf (F.ETH_PORT_CTRL_ENABLE 15) 1).sf (F.ETH_PORT_STATUS_LINK_UP 15) 1).sf (F.ETH_PORT_STATUS_ALIGNED 15) 1
theorem AgeingPowerAndClocks_witness_0 :
    ∃ (s : State), s.boot.failing = false ∧ s.grid.idle = true :=
  ⟨s13, (by decide), (by decide)⟩
theorem AgeingPowerAndClocks_witness_1 :
    ∃ (s : State) (r : Nat) (w : Int), s.boot.failing = false ∧ s.grid.idle = true ∧ msReady ≤ s.modState ∧ r < 6 ∧
        s.pwr.worst = [(r, w)] ∧ w < ↑(s.gf F.AGE_CFG_MARGIN_TARGET) ∧ s.gf (F.AGE_RAIL_V_MV r) < s.vMax r ∧
        s.pwr.glide = none :=
  ⟨s3, 2, _, (by decide), (by decide), (by decide), (by decide), rfl, (by decide), (by decide), (by decide)⟩
theorem AgeingPowerAndClocks_witness_2 :
    ∃ (s : State) (r : Nat) (w : Int), s.boot.failing = false ∧ s.grid.idle = true ∧ msReady ≤ s.modState ∧ r < 6 ∧
        s.pwr.worst = [(r, w)] ∧ w < ↑(s.gf F.AGE_CFG_MARGIN_TARGET) ∧ s.gf (F.AGE_RAIL_V_MV r) = s.vMax r :=
  ⟨s5, 2, _, (by decide), (by decide), (by decide), (by decide), rfl, (by decide), (by decide)⟩
theorem AgeingPowerAndClocks_witness_3 :
    ∃ (s : State) (r : Nat) (w : Int), s.boot.failing = false ∧ s.grid.idle = true ∧ msReady ≤ s.modState ∧ r < 6 ∧
        s.pwr.worst = [(r, w)] ∧ ↑(s.gf F.AGE_CFG_MARGIN_TARGET) ≤ w :=
  ⟨s6, 5, _, (by decide), (by decide), (by decide), (by decide), rfl, (by decide)⟩
theorem AgeingPowerAndClocks_witness_4 :
    ∃ (s : State), s.boot.failing = false ∧ s.grid.idle = true ∧ s.flag F.CLK_STATUS_REEF_PENDING = true ∧
        s.pwr.glide = none :=
  ⟨s8, (by decide), (by decide), (by decide), (by decide)⟩
theorem AgeingPowerAndClocks_witness_5 :
    ∃ (s : State) (n : Nat) (due : Nat), s.boot.failing = false ∧ s.grid.idle = true ∧ s.pwr.glide = some (n, due)
        ∧ 80 ≤ n ∧ n ≤ 96 :=
  ⟨s9, 89, 5000, (by decide), (by decide), (by decide), (by decide), (by decide)⟩
theorem AgeingPowerAndClocks_witness_7 :
    ∃ (s : State) (iin : BitVec 16), s.boot.failing = false ∧ s.grid.idle = true ∧ 10 * s.currentLimit < iin.toNat :=
  ⟨s13, 0xbb9, (by decide), (by decide), (by decide)⟩
theorem AgeingPowerAndClocks_witness_8 :
    ∃ (s : State) (iin : BitVec 16), s.boot.failing = false ∧ s.grid.idle = true ∧ iin.toNat ≤ 10 * s.currentLimit :=
  ⟨s13, 0x18f, (by decide), (by decide), (by decide)⟩
theorem AgeingPowerAndClocks_witness_10 :
    ∃ (s : State), s.boot.failing = false ∧ s.grid.idle = true ∧ s.ready = false :=
  ⟨s13, (by decide), (by decide), (by decide)⟩
theorem AgeingPowerAndClocks_witness_13 :
    ∃ (s : State), s.boot.failing = false ∧ s.grid.idle = true ∧ s.pwr.vinUp = true ∧ s.pwr.latch = 0 :=
  ⟨s6, (by decide), (by decide), (by decide), (by decide)⟩
theorem AgeingPowerAndClocks_witness_16 :
    ∃ (s : State), s.boot.failing = false ∧ s.grid.idle = true ∧ s.pwr.vinUp = true ∧ s.pwr.latch ≠ 0 :=
  ⟨s5, (by decide), (by decide), (by decide), (by decide)⟩
theorem AgeingPowerAndClocks_witness_19 :
    ∃ (s : State), s.boot.failing = false ∧ s.grid.idle = true ∧ s.step_ ≤ 3 :=
  ⟨s0, (by decide), (by decide), (by decide)⟩
theorem AgeingPowerAndClocks_witness_20 :
    ∃ (s : State), s.boot.failing = false ∧ s.grid.idle = true ∧ 3 < s.step_ ∧ s.modState ≠ msFailed ∧ ((List.range
        16).all fun p => !s.portOn p) = true ∧ s.rig.ops = [] :=
  ⟨s12, (by decide), (by decide), (by decide), (by decide), (by decide), (by decide)⟩
theorem AgeingPowerAndClocks_witness_21 :
    ∃ (s : State), s.boot.failing = false ∧ s.grid.idle = true ∧ ((List.range 16).all fun p => !s.portOn p) = true
        ∧ (∀ (n : Nat), n < 32 → s.linkState n ≠ lsUp) :=
  ⟨s12, (by decide), (by decide), (by decide), (by decide)⟩
theorem AgeingPowerAndClocks_witness_22 :
    ∃ (s : State) (p : Fin 16), s.boot.failing = false ∧ s.grid.idle = true ∧ s.portOn ↑p = true ∧ (∀ (q : Nat), q
        < 16 → q ≠ ↑p → s.portOn q = false) ∧ s.quietPort ↑p ∧ (∀ (n : Nat), n < 32 → s.linkState n = lsOff) ∧
        s.linkUp ↑p = true :=
  ⟨s13, 15, (by decide), (by decide), (by decide), (by decide), (quiet_intro' _ _ (by decide) (by decide) (by
      decide) (by decide) (by decide) (by decide)), (by decide), (by decide)⟩
theorem AgeingPowerAndClocks_witness_23 :
    ∃ (s : State), s.boot.failing = false ∧ s.grid.idle = true ∧ msLinking ≤ s.modState ∧ s.startFailed = false :=
  ⟨s13, (by decide), (by decide), (by decide), (by decide)⟩
def sb0 : State := rdy
theorem AgeingPowerAndClocks_witness_11 :
    ∃ (s : State), s.boot.failing = false ∧ s.grid.idle = true ∧ s.ready = true ∧ ((List.range 16).all fun p =>
        !s.portOn p) = true ∧ s.rig.ops = [] :=
  ⟨sb0, (by decide), (by decide), (by decide), (by decide), (by decide)⟩
end Supply

/-! ### The control space: what meets the hypotheses -/

namespace Control
def b : State := State.reset
def rdy : State :=
  { (((b.sf F.MODULE_STATE_STATE 3).sf F.BOOT_STATUS_STEP 11)) with boot := { b.boot with readyAt := some 0 }, pwr := { b.pwr with vinUp := true, good := true, pcieUp := true, smbAddr := some 0x58, smbOffset := 0x300000 } }
def smb (o : Nat) : State := { rdy with pwr := { rdy.pwr with smbOffset := o } }
def s0 : State := b
def s2 : State := smb 0x300008
def s5 : State := smb 0xffffffff
def s10 : State := (rdy.wrN R.RIG_REMOTE_CTRL_MASK 0xffffff).wrN R.PWR_EVENTS 0xf
theorem ControlSpace_witness_0 :
    ∃ (s : State) (src : Src) (off : BitVec 28) (data : List Byte) (r : RegDesc), s.boot.failing = false ∧
        s.grid.idle = true ∧ s.ctlRefused src off.toNat true = none ∧ (off.toNat < 1048576 ∨ 3145728 ≤ off.toNat ∧
        off.toNat < 4194304) ∧ findReg off.toNat = some r ∧ r.width = 8 * data.length :=
  ⟨s10, (.rigging 5), 0x301000, (List.replicate 8 0xff), _, (by decide), (by decide), (by decide), (by decide),
      rfl, (by decide)⟩
theorem ControlSpace_witness_1 :
    ∃ (s : State) (src : Src) (off : BitVec 28) (c : Nat), s.boot.failing = false ∧ s.grid.idle = true ∧
        s.ctlRefused src off.toNat true = some c :=
  ⟨s10, (.strand 2), 0x2f00040, 2, (by decide), (by decide), (by decide)⟩
theorem ControlSpace_witness_2 :
    ∃ (s : State) (off : BitVec 28) (r : RegDesc), s.boot.failing = false ∧ s.grid.idle = true ∧ findReg off.toNat
        = some r ∧ canonOff off.toNat = off.toNat ∧ r.w1c ≠ 0 ∧ (¬(8388608 ≤ off.toNat ∧ off.toNat < 12582912)) ∧
        isRigPortEvents off.toNat = false :=
  ⟨s10, 0x2f00040, _, (by decide), (by decide), rfl, (by decide), (by decide), (by decide), (by decide)⟩
theorem ControlSpace_witness_3 :
    ∃ (s : State), s.boot.failing = false ∧ s.grid.idle = true ∧ s.irq.funcMask = false ∧ s.irq.asserted = s.vectors :=
  ⟨s10, (by decide), (by decide), (by decide), (by decide)⟩
theorem ControlSpace_witness_4 :
    ∃ (s : State), s.boot.failing = false ∧ s.grid.idle = true :=
  ⟨s10, (by decide), (by decide)⟩
theorem ControlSpace_witness_5 :
    ∃ (s : State), s.boot.failing = false ∧ s.grid.idle = true ∧ s.pwr.pcieUp = true :=
  ⟨s10, (by decide), (by decide), (by decide)⟩
theorem ControlSpace_witness_7 :
    ∃ (s : State) (off : BitVec 28), s.boot.failing = false ∧ s.grid.idle = true ∧ s.pwr.pcieUp = true ∧ 3145728 ≤
        off.toNat ∧ off.toNat < 4194304 ∧ ctlWidth off.toNat = 4 :=
  ⟨s10, 0x300144, (by decide), (by decide), (by decide), (by decide), (by decide), (by decide)⟩
theorem ControlSpace_witness_8 :
    ∃ (s : State) (off : BitVec 28) (r : RegDesc) (data : List Byte), s.boot.failing = false ∧ s.grid.idle = true ∧
        s.pwr.pcieUp = true ∧ 3145728 ≤ off.toNat ∧ off.toNat < 4194304 ∧ findReg off.toNat = some r ∧ r.width = 32
        ∧ r.w1c = 0 ∧ r.w1s = 0 ∧ data.length = 4 :=
  ⟨s10, 0x300144, _, [0xff,0xff,0xff,0xff], (by decide), (by decide), (by decide), (by decide), (by decide), rfl,
      (by decide), (by decide), (by decide), (by decide)⟩
theorem ControlSpace_witness_9 :
    ∃ (s : State), s.boot.failing = false ∧ s.grid.idle = true ∧ s.smbOn = true :=
  ⟨s10, (by decide), (by decide), (by decide)⟩
theorem ControlSpace_witness_10 :
    ∃ (s : State), s.boot.failing = false ∧ s.grid.idle = true ∧ s.smbOn = true ∧ 3145728 ≤ s.pwr.smbOffset ∧
        s.pwr.smbOffset < 4194304 ∧ ctlWidth s.pwr.smbOffset = 4 :=
  ⟨s10, (by decide), (by decide), (by decide), (by decide), (by decide), (by decide)⟩
theorem ControlSpace_witness_11 :
    ∃ (s : State), s.boot.failing = false ∧ s.grid.idle = true ∧ s.smbOn = true ∧ 3145728 ≤ s.pwr.smbOffset ∧
        s.pwr.smbOffset < 4194304 ∧ s.pwr.smbOffset % 8 = 0 ∧ ctlWidth s.pwr.smbOffset = 8 :=
  ⟨s2, (by decide), (by decide), (by decide), (by decide), (by decide), (by decide), (by decide)⟩
theorem ControlSpace_witness_12 :
    ∃ (s : State), s.boot.failing = false ∧ s.grid.idle = true ∧ s.smbOn = true ∧ 4194304 ≤ s.pwr.smbOffset ∧
        s.pwr.smbOffset < 2 ^ 32 :=
  ⟨s5, (by decide), (by decide), (by decide), (by decide), (by decide)⟩
theorem ControlSpace_witness_16 :
    ∃ (s : State), s.boot.failing = false ∧ s.grid.idle = true ∧ (s.modState = msBooting ∨ s.modState = msFailed) :=
  ⟨s0, (by decide), (by decide), (by decide)⟩
theorem ControlSpace_witness_17 :
    ∃ (s : State), s.boot.failing = false ∧ s.grid.idle = true ∧ s.modState ≠ msBooting ∧ s.modState ≠ msFailed :=
  ⟨s10, (by decide), (by decide), (by decide), (by decide)⟩
end Control

end Sys2Proof.Tests
end

section
/-! The checked write of SW_IDX (R82): what raising an event and setting a field change, the three outcomes of the write,
and the obligation assembled from them. -/

namespace Sys2Proof.Machine

/-! ### Reading the registers after an operation -/

namespace State

variable {s t : State}

/-- A field of a register that is not among those changed keeps its value. -/
theorem gf_of_regsBut {l : List Nat} {f : Fld} (h : s.regsBut t l) (hf : f.off ∉ l) : t.gf f = s.gf f :=
  gf_congr f (h f.off hf)

theorem regsBut_sf (s : State) (f : Fld) (n : Nat) : s.regsBut (s.sf f n) [f.off] := fun a ha => by
  rw [rd_sf, if_neg (by simpa using ha)]

/-- An event that is not a Rigging port's changes its register and that register's re-occurrence counter only (R486). -/
theorem regsBut_raise (s : State) {f : Fld} {r : Nat} (hp : isRigPortEvents f.off = false)
    (hr : reoccOf f.off = some r) : s.regsBut (s.raise f) [f.off, r] := fun a ha => by
  obtain ⟨hoff, hctr⟩ : a ≠ f.off ∧ a ≠ r := by simpa using ha
  exact rd_raise_ne s f a hp hoff (by simpa [hr] using hctr.symm)

/-- A one-bit event reads 1 once raised (R485). -/
theorem gf_raise_self (s : State) {f : Fld} (hp : isRigPortEvents f.off = false) (hw : f.width = 1) (hl : f.lo < 64) :
    (s.raise f).gf f = 1 := by
  have hbit : ((s.raise f).rd f.off).toNat.testBit f.lo = true := by
    rw [rd_raise_self s f hp, BitVec.toNat_or, Nat.testBit_or, BitVec.toNat_ofNat, Nat.testBit_mod_two_pow,
      Nat.testBit_two_pow_self]
    simp [hl]
  rw [gf, hw, getBits, Nat.pow_one, Nat.shiftRight_eq_div_pow, ← Nat.toNat_testBit, hbit, Bool.toNat_true]

/-! ### A ring's status register -/

theorem isRigPortEvents_ringStatus {n : Nat} (h : n < 2 ^ 16) : isRigPortEvents (R.RING_STATUS n) = false :=
  isRigPortEvents_lt (by unfold R.RING_STATUS; omega)

theorem reoccOf_ringStatus (n : Nat) : reoccOf (R.RING_STATUS n) = some (R.RING_STATUS_REOCC n) := by
  rw [reoccOf_plain (by unfold R.RING_STATUS R.DECODE_ERR; omega) (by unfold R.RING_STATUS; omega)]
  exact congrArg some (by unfold R.RING_STATUS R.RING_STATUS_REOCC; omega)

theorem regsBut_raise_idxErr (s : State) {n : Nat} (h : n < 2 ^ 16) :
    s.regsBut (s.raise (F.RING_STATUS_IDX_ERR n)) [R.RING_STATUS n, R.RING_STATUS_REOCC n] :=
  regsBut_raise s (isRigPortEvents_ringStatus h) (reoccOf_ringStatus n)

theorem gf_raise_idxErr (s : State) {n : Nat} (h : n < 2 ^ 16) :
    (s.raise (F.RING_STATUS_IDX_ERR n)).gf (F.RING_STATUS_IDX_ERR n) = 1 :=
  gf_raise_self s (isRigPortEvents_ringStatus h) rfl (by simp [F.RING_STATUS_IDX_ERR])

theorem swIdx_raise_idxErr (s : State) {n : Nat} (h : n < 2 ^ 16) :
    (s.raise (F.RING_STATUS_IDX_ERR n)).swIdx n = s.swIdx n :=
  gf_of_regsBut (regsBut_raise_idxErr s h) <| by
    simp [F.RING_SW_IDX_SW_IDX, R.RING_SW_IDX, R.RING_STATUS, R.RING_STATUS_REOCC]

@[simp] theorem swIdx_settle (s : State) (c n : Nat) : (s.settle c).swIdx n = s.swIdx n := gf_settle s c _

/-- SW_IDX holds any 32-bit value written to it. -/
theorem swIdx_sf_self (s : State) (n : Nat) (v : W32) :
    (s.sf (F.RING_SW_IDX_SW_IDX n) v.toNat).swIdx n = v.toNat :=
  (gf_sf_self s _ _ (by simp [F.RING_SW_IDX_SW_IDX])).trans (Nat.mod_eq_of_lt v.isLt)

end State

/-! ### The check of R82 -/

/-- The model's subtraction modulo 2³² is that of 32-bit words. -/
theorem sub32_eq_toNat_sub (a b : Nat) : sub32 a b = (BitVec.ofNat 32 a - BitVec.ofNat 32 b).toNat := by
  simp only [sub32, BitVec.toNat_sub, BitVec.toNat_ofNat]
  omega

theorem isDescClass_iff (c : Nat) : isDescClass c = true ↔ c = rcRx ∨ c = rcTx ∨ c = rcRecord := by
  simp [isDescClass, or_assoc]

namespace State

variable {s : State} {n : Nat} {v : W32}

/-- R82 refuses the value `v`: it moves SW_IDX backwards, posts more descriptors than the ring has, or passes DEV_IDX in a
ring that the device fills. -/
def SwIdxRefused (s : State) (n : Nat) (v : W32) : Prop :=
  let sw := BitVec.ofNat 32 (s.swIdx n)
  let dev := BitVec.ofNat 32 (s.devIdx n)
  let c := s.ringClass n
  2 ^ 31 ≤ (v - sw).toNat ∨ ((c = rcRx ∨ c = rcTx ∨ c = rcRecord) ∧ s.ringSize n < (v - dev).toNat) ∨
    ((c = rcReclog ∨ c = rcDoorbell) ∧ (dev - sw).toNat < (v - sw).toNat)

/-- The test that the write computes is the check of R82. -/
theorem swIdxCheck_iff :
    (decide (2 ^ 31 ≤ sub32 v.toNat (s.swIdx n)) ||
      (isDescClass (s.ringClass n) && decide (s.ringSize n < sub32 v.toNat (s.devIdx n))) ||
      ((decide (s.ringClass n = rcReclog) || decide (s.ringClass n = rcDoorbell)) &&
        decide (sub32 (s.devIdx n) (s.swIdx n) < sub32 v.toNat (s.swIdx n)))) = true ↔ s.SwIdxRefused n v := by
  simp only [SwIdxRefused, sub32_eq_toNat_sub, BitVec.ofNat_toNat, BitVec.setWidth_eq, Bool.or_eq_true, Bool.and_eq_true,
    decide_eq_true_eq, isDescClass_iff, or_assoc]

theorem swIdxWrite_of_off {k : Nat} (h : s.ringOn n = false) : s.swIdxWrite n k = s := by
  rw [swIdxWrite, h]; rfl

theorem swIdxWrite_of_refused (h : s.ringOn n = true) (hv : s.SwIdxRefused n v) :
    s.swIdxWrite n v.toNat = s.raise (F.RING_STATUS_IDX_ERR n) := by
  simp only [swIdxWrite, h, Bool.not_true, Bool.false_eq_true, if_false, if_pos (swIdxCheck_iff.mpr hv)]

theorem swIdxWrite_of_not_refused (h : s.ringOn n = true) (hv : ¬ s.SwIdxRefused n v) :
    s.swIdxWrite n v.toNat = s.sf (F.RING_SW_IDX_SW_IDX n) v.toNat := by
  simp only [swIdxWrite, h, Bool.not_true, Bool.false_eq_true, if_false, if_neg (not_congr swIdxCheck_iff |>.mpr hv)]

end State

/-! ### The command -/

section
variable {s t : State} {n : BitVec 16} {v : W32}

/-- SW_IDX_WRITE completes with the checked write made and the interrupt lines settled. -/
theorem completes_swIdxWrite {P : State → Prop} (ht : s.swIdxWrite n.toNat v.toNat = t) (hP : P t.settle) :
    Completes (.swIdxWrite n v) s P :=
  completes_done (x := t) (by rw [← ht]; rfl) hP

theorem completes_swIdxWrite_of_off (h : s.ringOn n.toNat = false) :
    Completes (.swIdxWrite n v) s fun t => s.same t [] ∧ s.sends t [] :=
  completes_swIdxWrite (State.swIdxWrite_of_off h)
    ⟨State.same_settle (State.same_refl s []), State.sends_settle rfl⟩

theorem completes_swIdxWrite_of_refused (h : s.ringOn n.toNat = true) (hv : s.SwIdxRefused n.toNat v) :
    Completes (.swIdxWrite n v) s fun t =>
      t.gf (F.RING_STATUS_IDX_ERR n.toNat) = 1 ∧ t.swIdx n.toNat = s.swIdx n.toNat ∧
      s.regsBut t [R.RING_STATUS n.toNat, R.RING_STATUS_REOCC n.toNat] ∧ s.same t [.regs] ∧ s.sends t [] := by
  refine completes_swIdxWrite (State.swIdxWrite_of_refused h hv)
    ⟨?set, ?kept, State.regsBut_settle (State.regsBut_raise_idxErr s n.isLt),
      State.same_settle (State.same_raise s _), State.sends_settle (State.raise_out s _)⟩
  case set => rw [State.gf_settle, State.gf_raise_idxErr s n.isLt]
  case kept => rw [State.swIdx_settle, State.swIdx_raise_idxErr s n.isLt]

theorem completes_swIdxWrite_of_not_refused (h : s.ringOn n.toNat = true) (hv : ¬ s.SwIdxRefused n.toNat v) :
    Completes (.swIdxWrite n v) s fun t =>
      t.swIdx n.toNat = v.toNat ∧ s.regsBut t [R.RING_SW_IDX n.toNat] ∧ s.same t [.regs] ∧ s.sends t [] := by
  refine completes_swIdxWrite (State.swIdxWrite_of_not_refused h hv)
    ⟨?stored, State.regsBut_settle (State.regsBut_sf s _ _),
      State.same_settle (State.same_sf s _ _), State.sends_settle (State.sf_out s _ _)⟩
  case stored => rw [State.swIdx_settle, State.swIdx_sf_self]

end

/-- Settles O17: the ring is off, or R82 refuses the value, or it is stored. -/
theorem swIdxWrite : Obligations.SwIdxWrite := by
  unfold Obligations.SwIdxWrite
  intro n v s
  exact ⟨completes_swIdxWrite_of_off, fun on =>
    ⟨completes_swIdxWrite_of_refused on, completes_swIdxWrite_of_not_refused on⟩⟩

end Sys2Proof.Machine
end
